-- ==== Sys2Proof/Word.lean ====
section
/-! DEFINITION. The words of the block: the fixed-width formats of 30_encoding.md R40 and the colour triple of 10_state.md R14.
A clock sample is an unsigned `TIME_W`-bit number of microseconds (R43). `TIME_W` is an open parameter that the state carries as
data (R6), so a sample is held as its value, a Nat; every operation that could leave [0, 2^TIME_W) reduces it explicitly (log
entry 7). -/

namespace Sys2Proof

/-- A 32-bit pixel word, moved whole on the pixel port (R30, R44). -/
abbrev PixelWord := BitVec 32

/-- A 25-bit glyph: bit c is the cell with logical index c (R45). -/
abbrev Glyph := BitVec 25

/-- A 4-bit frame selection; 0..9 are legal (R46). -/
abbrev Sel := BitVec 4

/-- A 5-bit logical index, physical index or slot; 0..24 are legal (R47). -/
abbrev Index := BitVec 5

/-- An 8-bit colour channel (R6 `CHAN_W`). -/
abbrev Channel := BitVec 8

/-- The source's Color: "a fixed triple of 8-bit channel intensities" (R14). -/
structure Color where
  r : Channel
  g : Channel
  b : Channel
deriving DecidableEq, Repr, Inhabited

/-- The colour (0,0,0), whose packing is fixed (R44). -/
def Color.black : Color := ⟨0, 0, 0⟩

end Sys2Proof
end

