-- ==== Sys2Proof/Config.lean ====
section
/-! DEFINITION. The parameters of 00_scope.md R6 as plain data, one sample of the input ports of 10_state.md R20, and the
free values that stand for what the spec leaves OPEN. -/

namespace Sys2Proof

/-- The implementation parameters that the spec marks OPEN (R6). `EDGE_WHILE_BUSY` is the environment's and no field here
(R19); it stands in Machine/Environment.lean. -/
structure Params where
  /-- `TIME_W`, the width of the clock and of DBT; legal from 18 on (R7). -/
  timeW : Nat
  /-- The parameter `COLOR`, loaded into the register at reset (R14). -/
  color : Color
  /-- `PACK` at the colours listed here; at every other colour it is the free value `Config.packFree` (R44, decision D8). -/
  pack : List (Color × PixelWord)
  /-- `GLYPH_ROM[1..9]`, nine arbitrary glyph words (R53). -/
  glyphs : Vector Glyph 9
  /-- `BOOT_RENDER`: does reset start a render (R95)? -/
  bootRender : Bool
deriving DecidableEq, Repr

/-- The values on the block's five input ports in one step (R20). -/
structure PortIn where
  /-- `rst`: reset request (R95). -/
  rst : Bool
  /-- `ev_valid`: an edge event is offered. -/
  evValid : Bool
  /-- `ev_pin`: 0 = Button A, 1 = Button B (R41). -/
  evPin : BitVec 1
  /-- The number driven on `ev_now`; the port has `TIME_W` wires and carries its value modulo 2^`TIME_W` (R20). -/
  evNow : Nat
  /-- `pix_ready`: the strip driver accepts the word. -/
  pixReady : Bool
deriving DecidableEq, Repr, Inhabited

namespace Config

/-- The smallest legal `TIME_W` (R7). -/
def timeWMin : Nat := 18

/-- The spec's default `TIME_W` (R6, decision D4). -/
def timeWDefault : Nat := 64

/-- FREE VALUE, log entry 5: the parameter `COLOR`, which the source does not give (R14, U6). -/
opaque color : Color

/-- FREE VALUE, log entry 5: `GLYPH_ROM[1..9]`, which the source does not give (R53, U8). -/
opaque glyphs : Vector Glyph 9

/-- FREE VALUE, log entry 5: `BOOT_RENDER`, on which the source is silent (decision D13, U9). -/
opaque bootRender : Bool

/-- FREE VALUE, log entry 6: `PACK` at the colours that no list of values names (R44, U7). -/
opaque packFree : Color → PixelWord

/-- FREE VALUE, log entry 2: what the environment drives on the input ports in the n-th step for which the state lists no
sample (R26, U3, U5, U11, U14). -/
opaque freeInput : Nat → PortIn

/-- The parameters in the state after power-on: the spec's default width, and a free value for all that is OPEN
(log entries 4, 5 and 6). -/
def params : Params :=
  { timeW := timeWDefault, color := color, pack := [], glyphs := glyphs, bootRender := bootRender }

end Config

end Sys2Proof
end

