-- ==== Sys2Proof/Machine/State.lean ====
section
/-! DEFINITION. The state of the block as plain data, the reasons of its fault register, and reset
(10_state.md R10 and R25, 60_exceptions.md R80). -/

namespace Sys2Proof.Machine

/-- The render sequencer's phase (R15). -/
inductive Phase where
  /-- Waiting for an event. -/
  | idle
  /-- Emitting slot K of a render. -/
  | render
deriving DecidableEq, Repr

/-- The reasons of `raise Fault(reason)` with the value each records (R80). They are recorded in the register FAULT: raising
one is a next state, and no step answers with one as its outcome (log entry 8). -/
inductive Fault where
  /-- Code 1, raised by GlyphRead when f >= 10; records f (R54). Safe: unreachable from reset. -/
  | frameOutOfRange (f : Sel)
  /-- Code 2, raised by `corr` or GlyphRead when an index >= 25; records the index (R54, R61). Safe: unreachable from reset. -/
  | indexOutOfRange (i : Index)
deriving DecidableEq, Repr

/-- Why the model gives a step no meaning. -/
inductive Refusal where
  /-- Raised by a rejected arm of `exec`, for an instruction that has no meaning yet. Safe. No arm raises it. -/
  | notModelled (mnemonic : String)
  /-- Raised by `step` when the decoder rejects the record on the event port. Safe: no state reaches it, since the port's
  wires carry only records of 1 + `TIME_W` bits (R48). -/
  | recordTooWide
deriving DecidableEq, Repr

/-- The whole state: the registers of R10, the parameters and the glyph ROM (R6, R28), and the block's streams (R27). -/
structure State where
  /-- SEL, the frame selection (R12). -/
  sel : Sel
  /-- DBT, the time of the last accepted event (R13). -/
  dbt : Nat
  /-- COLOR, loaded at reset (R14). -/
  color : Color
  /-- PHASE (R15). -/
  phase : Phase
  /-- K, the slot of the render; without meaning in IDLE (R15, R16). -/
  k : Index
  /-- FAULT: none, or the reason (R80). -/
  fault : Option Fault
  /-- The parameters and `GLYPH_ROM[1..9]` (R6, R53). No step writes them (R38). -/
  params : Params
  /-- The input ports of the coming steps, the next step's first (R20; log entry 1). -/
  inputs : List PortIn
  /-- The model's own counter: which free sample a step reads when `inputs` lists none (log entry 2). -/
  tick : Nat
  /-- The pixel output stream: the words delivered so far, oldest first (R27; log entry 14). -/
  pixOut : List PixelWord
deriving DecidableEq, Repr

/-- The state after reset of a block with parameters `p` (R25), with no input listed and nothing delivered. -/
def State.resetWith (p : Params) : State where
  sel := 0
  dbt := 0
  color := p.color
  phase := if p.bootRender then .render else .idle
  k := 0
  fault := none
  params := p
  inputs := []
  tick := 0
  pixOut := []

/-- The machine right after reset (R25), its OPEN parameters free values but for `TIME_W` = 64 (log entries 4, 5, 6). -/
def State.reset : State :=
  .resetWith Config.params

end Sys2Proof.Machine
end

