-- ==== Sys2Proof/Machine/Ops.lean ====
section
/-! DEFINITION. The named operations over the state: one accessor for each register write, the input sample a step reads, the
pixel transfer, raising a fault, entering and leaving the handling of an event, and reset. -/

namespace Sys2Proof.Machine

/-- `FRAME_COUNT` (R6, decision D24). -/
def frameCount : Nat := 10

/-- `CELLS` = `ROWS` * `COLS` (R6, decision D24). -/
def cells : Nat := 25

/-- `DEBOUNCE_US`: the window in microseconds (R6, R43, decision D24). -/
def debounceUs : Nat := 250000

/-- The encoding of PHASE in its one bit (R10). -/
def Phase.toBit : Phase → BitVec 1
  | .idle => 0
  | .render => 1

/-- The fault codes of R80. -/
def Fault.code : Fault → Nat
  | .frameOutOfRange _ => 1
  | .indexOutOfRange _ => 2

/-- The recorded values of R80. -/
def Fault.value : Fault → Nat
  | .frameOutOfRange f => f.toNat
  | .indexOutOfRange i => i.toNat

namespace State

/-- `SEL <- v` (R12). -/
def setSel (s : State) (v : Sel) : State := { s with sel := v }

/-- `DBT <- v`; the register keeps `TIME_W` bits (R13, decision D5). -/
def setDbt (s : State) (v : Nat) : State := { s with dbt := v % 2 ^ s.params.timeW }

/-- `K <- v` (R16). -/
def setK (s : State) (v : Index) : State := { s with k := v }

/-- `PHASE <- v` (R15). -/
def setPhase (s : State) (v : Phase) : State := { s with phase := v }

/-- `raise Fault(reason)`: FAULT takes the reason and nothing else changes (R80). -/
def raiseFault (s : State) (r : Fault) : State := { s with fault := some r }

/-- `PixWrite(w)`: the consumer receives the word as the next of the stream (R27, R32). -/
def pixWrite (s : State) (w : PixelWord) : State := { s with pixOut := s.pixOut ++ [w] }

/-- The values on the input ports in this step: the first listed sample, and a free value where none is listed
(R20; log entries 1 and 2). -/
def portIn (s : State) : PortIn :=
  match s.inputs with
  | i :: _ => i
  | [] => Config.freeInput s.tick

/-- The step is over: its input sample is used up (R32). No register changes. -/
def advance (s : State) : State :=
  match s.inputs with
  | _ :: rest => { s with inputs := rest }
  | [] => { s with tick := s.tick + 1 }

/-- `start_render()` (R64). -/
def startRender (s : State) : State := (s.setK 0).setPhase .render

/-- Taking an event, the block's "trap entry" (R85): DBT, then SEL by the event's transition, then the render starts
(R69, R71). It saves nothing and has no vector. -/
def acceptEvent (transition : State → State) (now : Nat) (s : State) : State :=
  (transition (s.setDbt now)).startRender

/-- The completion of slot 24, the block's "trap return" (R86): PHASE = IDLE reopens the event port; K is kept (R65). -/
def completeRender (s : State) : State := s.setPhase .idle

/-- `reset()` (R95): every register takes its reset value. Nothing is transferred on either port. -/
def resetRegisters (s : State) : State :=
  { s with
    sel := 0
    dbt := 0
    color := s.params.color
    k := 0
    fault := none
    phase := if s.params.bootRender then .render else .idle }

end State

end Sys2Proof.Machine
end

