-- ==== Sys2Proof/Machine/Flags.lean ====
section
/-! DEFINITION. The block has no flags (10_state.md R17). Its only status is on its output ports (R18): the ready and valid
signals of R20 and `sel_out`; beside them, the one condition an event is tested for, the debounce gate (44_selection_fsm.md R70). -/

namespace Sys2Proof.Machine

/-- `ev_ready`: 1 iff PHASE = IDLE and FAULT = none (R20, R82). -/
def State.evReady (s : State) : Bool :=
  decide (s.phase = .idle) && s.fault.isNone

/-- `pix_valid`: 1 iff PHASE = RENDER and FAULT = none (R20). -/
def State.pixValid (s : State) : Bool :=
  decide (s.phase = .render) && s.fault.isNone

/-- `sel_out` always equals SEL (R24). -/
def State.selOut (s : State) : Sel := s.sel

/-- `(now - DBT) mod 2^TIME_W`, the unsigned `TIME_W`-bit difference (R70, R8). -/
def timeDelta (timeW : Nat) (now dbt : Nat) : Nat :=
  (((now : Int) - (dbt : Int)) % ((2 ^ timeW : Nat) : Int)).toNat

/-- `gate(now, DBT)`: strictly more than `DEBOUNCE_US` since the last accepted event (R70). -/
def gate (timeW : Nat) (now dbt : Nat) : Bool :=
  decide (debounceUs < timeDelta timeW now dbt)

end Sys2Proof.Machine
end

