-- ==== Sys2Proof/Machine/Selection.lean ====
section
/-! DEFINITION. The selection state machine and its shared debounce gate: the event step and the meanings of `EV_A` and `EV_B`
(44_selection_fsm.md R69 to R74). -/

namespace Sys2Proof.Machine

/-- `(SEL + 1) mod 10`, the sum exact before the `mod` (R73). -/
def selIncrement (v : Sel) : Sel :=
  BitVec.ofNat 4 ((v.toNat + 1) % frameCount)

/-- `SEL - 1` as a 4-bit subtraction, and 9 where that is out of [0,9] (R74). -/
def selDecrement (v : Sel) : Sel :=
  if frameCount ≤ (v - 1).toNat then 9 else v - 1

/-- `ev_b()` (R73). -/
def State.increment (s : State) : State := s.setSel (selIncrement s.sel)

/-- `ev_a()` (R74). -/
def State.decrement (s : State) : State := s.setSel (selDecrement s.sel)

/-- The event step (R69) for an event with the given transition. An open port transfers the event: the gate accepts it (R71)
or drops it with no effect (R72). A closed port transfers nothing (R21; log entry 11). -/
def eventStep (transition : State → State) (now : Nat) (s : State) : State :=
  if s.evReady then
    if gate s.params.timeW now s.dbt then s.acceptEvent transition now else s
  else s

/-- `EV_A`, the decrement event of Button A (R74). -/
def execEvA (now : Nat) (s : State) : Host.Outcome State Fault Refusal :=
  .next (eventStep State.decrement now s)

/-- `EV_B`, the increment event of Button B (R73). -/
def execEvB (now : Nat) (s : State) : Host.Outcome State Fault Refusal :=
  .next (eventStep State.increment now s)

end Sys2Proof.Machine
end

