-- ==== Sys2Proof/Syntax.lean ====
section
/-! DEFINITION. The operations of the event port: one constructor for each row of spec/opcode_table.json (30_encoding.md R41). -/

namespace Sys2Proof

/-- The two event kinds (R41). The operand is the clock sample `now` of the transfer (R22, R43). -/
inductive Instr where
  /-- `EV_A` (alias `DEC`): a falling edge of Button A, decrement (R74). -/
  | evA (now : Nat)
  /-- `EV_B` (alias `INC`): a falling edge of Button B, increment (R73). -/
  | evB (now : Nat)
deriving DecidableEq, Repr

/-- The clock sample an event carries. -/
def Instr.now : Instr → Nat
  | .evA now => now
  | .evB now => now

end Sys2Proof
end

