-- ==== Sys2Proof/Machine/Dispatch.lean ====
section
/-! DEFINITION. One arm for each event kind (30_encoding.md R41). -/

namespace Sys2Proof.Machine

/-- The meaning of an event at a state (R69). -/
def exec (i : Instr) (s : State) : Host.Outcome State Fault Refusal :=
  match i with
  | .evA now => Sys2Proof.Machine.execEvA now s
  | .evB now => Sys2Proof.Machine.execEvB now s

end Sys2Proof.Machine
end

