-- ==== Sys2Proof/WellFormed.lean ====
section
/-! DEFINITION. What the formats of 30_encoding.md R40 and the parameter rule R7 admit. -/

namespace Sys2Proof

/-- An event's `now` fits the `TIME_W` bits of its field (R40, R43). -/
def Instr.wellFormed (timeW : Nat) : Instr → Bool
  | .evA now => decide (now < 2 ^ timeW)
  | .evB now => decide (now < 2 ^ timeW)

/-- `TIME_W` is legal: "must be at least 18" (R7). Every other parameter is legal by its type (R6). -/
def Params.legal (p : Params) : Bool :=
  decide (Config.timeWMin ≤ p.timeW)

end Sys2Proof
end

