-- ==== Sys2Proof/Decode.lean ====
section
/-! DEFINITION. The event map of 30_encoding.md R40 and R41: reading an EVENT record `{now, pin}`, and writing one. A record
is a number whose bit 0 is the pin and whose bits `TIME_W`..1 are `now`. The record is carried on wires and stands in no
byte-addressed space (R30), so there is no byte order to decode (log entry 12). -/

namespace Sys2Proof

/-- Why a number is no EVENT record. -/
inductive DecodeError where
  /-- A bit above bit `TIME_W` is set: the record has 1 + `TIME_W` bits (R40). -/
  | recordTooWide
deriving DecidableEq, Repr

/-- The decoder of R41, total on every number. It selects by `pin` alone (R49); both values are defined (R48). -/
def decode (timeW record : Nat) : Except DecodeError Instr :=
  if record < 2 ^ (timeW + 1) then
    if record % 2 = 0 then .ok (.evA (record / 2)) else .ok (.evB (record / 2))
  else .error .recordTooWide

/-- The record of an event, from the same layout (R40). -/
def encode : Instr → Nat
  | .evA now => now * 2
  | .evB now => now * 2 + 1

/-- The record that the two ports `ev_pin` and `ev_now` carry at once (R20, R40). `ev_now` has `TIME_W` wires. -/
def PortIn.record (timeW : Nat) (p : PortIn) : Nat :=
  p.evNow % 2 ^ timeW * 2 + p.evPin.toNat

/-- The port values that offer an event with the given record, with no reset and an unready consumer (R20). -/
def PortIn.offering (record : Nat) : PortIn :=
  { rst := false, evValid := true, evPin := BitVec.ofNat 1 record, evNow := record / 2, pixReady := false }

/-- The instruction of the opcode table's word `w` of `nbits` bits, every higher bit 0, at the default `TIME_W`. -/
def decodeTableWord (nbits w : Nat) : Option Instr :=
  (decode Config.timeWDefault (w % 2 ^ nbits)).toOption

end Sys2Proof
end

