-- ==== Sys2Proof/Machine/Operands.lean ====
section
/-! DEFINITION. The operand form of the event port: the record on `ev_pin` and `ev_now`, read by the decoder
(10_state.md R21, 30_encoding.md R40 and R41). -/

namespace Sys2Proof.Machine

/-- `EvTake()`: the event that the ports `ev_pin` and `ev_now` carry. With `ev_pin` = 0 it is `EV_A`, with 1 `EV_B`, and the
operand is `ev_now` on its `TIME_W` wires. -/
def evTake (timeW : Nat) (p : PortIn) : Except DecodeError Instr :=
  decode timeW (p.record timeW)

end Sys2Proof.Machine
end

