-- ==== Sys2Proof/Machine/FrameTable.lean ====
section
/-! DEFINITION. The frame table: the glyph ROM and its lookup (41_frame_table.md R51 to R54, 20_memory.md R28 and R33). -/

namespace Sys2Proof.Machine

/-- Glyph 0 (R52), as the word of R45. -/
def glyph0 : Glyph := 0x0E5294E

/-- `GLYPH_ROM[0..9]`: the fixed glyph and the nine of the parameter (R28, R53). -/
def glyphRom (p : Params) : List Glyph :=
  glyph0 :: p.glyphs.toList

/-- `GLYPH_ROM[f]`. The lookup is always in the list: its only caller has checked f (R51). -/
def glyphWord (p : Params) (f : Sel) : Glyph :=
  (glyphRom p).getD f.toNat 0

/-- `GlyphRead(f, c)`: one cell of one glyph (R51), with the faults of R54. -/
def glyphRead (p : Params) (f : Sel) (c : Index) : Except Fault Bool :=
  if frameCount ≤ f.toNat then .error (.frameOutOfRange f)
  else if cells ≤ c.toNat then .error (.indexOutOfRange c)
  else .ok ((glyphWord p f).getLsbD c.toNat)

/-- The ROM as a flat 250-bit array, glyph f from bit 25*f on (R33). -/
def flatRom (p : Params) : BitVec 250 :=
  (glyphRom p).foldr (fun g rest => (rest <<< cells) ||| g.setWidth 250) 0

end Sys2Proof.Machine
end

