-- ==== Sys2Proof/Machine/IndexCorrector.lean ====
section
/-! DEFINITION. The index corrector, the serpentine index mapper (42_index_corrector.md R55 and R61). -/

namespace Sys2Proof.Machine

/-- `corr(i)`: the two swap bands of rows 1 and 3, and the reversal of rows 0, 2 and 4, exactly as R55 has them. -/
def corr (i : Index) : Except Fault Index :=
  if 25 ≤ i.toNat then .error (.indexOutOfRange i)
  else if (5 ≤ i.toNat ∧ i.toNat < 10) ∨ (15 ≤ i.toNat ∧ i.toNat < 20) then
    if i.toNat < 10 then .ok (BitVec.ofNat 5 (i.toNat + 10)) else .ok (BitVec.ofNat 5 (i.toNat - 10))
  else .ok (BitVec.ofNat 5 (24 - i.toNat))

/-- The usual per-row serpentine map on [0,25), odd rows reversed. It is no part of the block: R60 relates `corr` to it. -/
def serp (i : Nat) : Nat :=
  if i / 5 % 2 = 1 then 5 * (i / 5) + (4 - i % 5) else i

end Sys2Proof.Machine
end

