-- ==== Sys2Proof/Machine/Renderer.lean ====
section
/-! DEFINITION. The frame renderer: the pixel word of a slot and the slot step (43_frame_renderer.md R63 and R65, 30_encoding.md R44). -/

namespace Sys2Proof.Machine

/-- `PACK`: (0,0,0) packs to 0; a listed colour to its listed word; any other to a free value (R44; log entry 6). -/
def pack (p : Params) (c : Color) : PixelWord :=
  if c = Color.black then 0 else (p.pack.lookup c).getD (Config.packFree c)

/-- `OFF_WORD` (R44). -/
def offWord : PixelWord := 0

/-- `word(s, k)` for the selection `sel` and the slot `k` (R63): the cell at the corrected index decides. -/
def word (p : Params) (color : Color) (sel : Sel) (k : Index) : Except Fault PixelWord :=
  match corr k with
  | .error r => .error r
  | .ok c =>
    match glyphRead p sel c with
    | .error r => .error r
    | .ok true => .ok (pack p color)
    | .ok false => .ok offWord

/-- The word of slot K of the render in progress. -/
def State.slotWord (s : State) : Except Fault PixelWord :=
  word s.params s.color s.sel s.k

/-- The port `pix_word` where it means something, while `pix_valid` = 1 (R23, R65). It is none where the lookup would fault,
which no run from reset meets (log entry 9). -/
def State.pixWord (s : State) : Option PixelWord :=
  if s.pixValid then s.slotWord.toOption else none

/-- The slot step (R65). With `pix_ready` = 1 slot K is delivered and K moves on, or the render completes after slot 24; a
lookup that faults delivers nothing (R80; log entry 9). With `pix_ready` = 0 the write blocks. -/
def slotStep (pixReady : Bool) (s : State) : State :=
  if pixReady then
    match s.slotWord with
    | .error r => s.raiseFault r
    | .ok w => if s.k = 24 then (s.pixWrite w).completeRender else (s.pixWrite w).setK (s.k + 1)
  else s

end Sys2Proof.Machine
end

