-- ==== Sys2Proof/Machine/Sequencer.lean ====
section
/-! DEFINITION. What one step does with its input sample: the choice among reset, event, slot step and wait
(70_reset_and_hazards.md R95, 44_selection_fsm.md R69, 43_frame_renderer.md R65, 60_exceptions.md R80). -/

namespace Sys2Proof.Machine

/-- The one thing a step does (R3). -/
inductive Action where
  /-- `rst` = 1, from any state (R95). -/
  | reset
  /-- The block has no enabled step: IDLE with no event offered (R69), or a faulted block (R80). -/
  | wait
  /-- The slot step, with the value of `pix_ready` (R65). -/
  | slot (pixReady : Bool)
  /-- This event is transferred (R21). -/
  | event (i : Instr)
  /-- The event port carries no EVENT record. -/
  | reject (e : DecodeError)
deriving DecidableEq, Repr

/-- The choice of a step. Reset comes first (R83, R95). The event port is looked at when `ev_ready` = 1, the pixel port when
`pix_valid` = 1; with `ev_valid` = 0 the other event lines are ignored (R41). -/
def action (s : State) : Action :=
  let p := s.portIn
  if p.rst then .reset
  else if s.evReady then
    if p.evValid then
      match evTake s.params.timeW p with
      | .ok i => .event i
      | .error e => .reject e
    else .wait
  else if s.pixValid then .slot p.pixReady
  else .wait

end Sys2Proof.Machine
end

