-- ==== Sys2Proof/Machine/Step.lean ====
section
/-! DEFINITION. One step of the block (00_scope.md R3), and the placing of one event where the next step takes it. -/

namespace Sys2Proof.Machine

/-- One step: it uses up one input sample and does what `action` chose for it. -/
def step (s : State) : Host.Outcome State Fault Refusal :=
  match action s with
  | .reset => .next s.advance.resetRegisters
  | .wait => .next s.advance
  | .slot ready => .next (slotStep ready s.advance)
  | .event i => exec i s.advance
  | .reject .recordTooWide => .refused .recordTooWide

/-- `s` with the event of the opcode table's word `w` offered in the next step, and the event port open to take it: PHASE = IDLE
and FAULT = none (R21; log entry 13). -/
def State.withFetchWord (s : State) (nbits w : Nat) : State :=
  { s with phase := .idle, fault := none, inputs := PortIn.offering (w % 2 ^ nbits) :: s.inputs }

end Sys2Proof.Machine
end

