-- ==== Sys2Proof/Machine/Environment.lean ====
section
/-! DEFINITION. The environment's side of the ports, for scripts and claims; nothing here is block state (10_state.md R19). The
event script of 30_encoding.md R50, the policy EDGE_WHILE_BUSY of 60_exceptions.md R84, and the two orders of R83. -/

namespace Sys2Proof.Machine

/-- A sample in which the consumer takes a word and nothing else happens. -/
def sampleReady : PortIn := { rst := false, evValid := false, evPin := 0, evNow := 0, pixReady := true }

/-- A sample in which nothing happens: no reset, no event, an unready consumer. -/
def sampleQuiet : PortIn := { sampleReady with pixReady := false }

/-- A sample that asserts `rst` (R95). -/
def sampleReset : PortIn := { sampleReady with rst := true }

/-- A sample that offers an event. -/
def sampleEvent (i : Instr) : PortIn := .offering (encode i)

/-- One line of the event script (R50). -/
inductive ScriptLine where
  /-- `A t` or `DEC t`. -/
  | a (t : Nat)
  /-- `B t` or `INC t`. -/
  | b (t : Nat)
  /-- `RESET`. -/
  | reset
deriving DecidableEq, Repr

/-- A non-empty run of decimal digits, most significant first. -/
def parseDecimal (ds : List Char) : Option Nat :=
  if ds.isEmpty || !ds.all Char.isDigit then none
  else some (ds.foldl (fun n d => n * 10 + (d.toNat - '0'.toNat)) 0)

/-- The text of a script line (R50). -/
def parseLine : List Char → Option ScriptLine
  | 'A' :: ' ' :: ds => (parseDecimal ds).map .a
  | 'D' :: 'E' :: 'C' :: ' ' :: ds => (parseDecimal ds).map .a
  | 'B' :: ' ' :: ds => (parseDecimal ds).map .b
  | 'I' :: 'N' :: 'C' :: ' ' :: ds => (parseDecimal ds).map .b
  | ['R', 'E', 'S', 'E', 'T'] => some .reset
  | _ => none

/-- The sample in which a line acts. -/
def ScriptLine.sample : ScriptLine → PortIn
  | .a t => sampleEvent (.evA t)
  | .b t => sampleEvent (.evB t)
  | .reset => sampleReset

/-- A line and the time its render may take: the consumer accepts every word at once, and the render is over before the next
line is offered (R50 conventions (a) and (c)). Where no render runs, the 25 samples are waits (log entry 16). -/
def ScriptLine.samples (l : ScriptLine) : List PortIn :=
  l.sample :: List.replicate cells sampleReady

/-- The input samples of a script. DESIGN CHOICE, log entry 20: R50 does not say from which state a script starts, and these
samples presume an open event port (`ev_ready` = 1) at the first of them. From reset with `BOOT_RENDER` true the port is closed
(R96), so an event on the first line would be offered at `ev_ready` = 0, against convention (c), and lost: there the samples
of the boot render (25 of `sampleReady`) come before the script's. -/
def scriptInputs (script : List ScriptLine) : List PortIn :=
  script.flatMap ScriptLine.samples

/-- Convention (b) of R50: each line's time is at least every earlier one's since the last `RESET` (R94 `MONO`). -/
def scriptMonotone (last : Nat) : List ScriptLine → Bool
  | [] => true
  | .reset :: rest => scriptMonotone 0 rest
  | .a t :: rest => decide (last ≤ t) && scriptMonotone t rest
  | .b t :: rest => decide (last ≤ t) && scriptMonotone t rest

/-- `EDGE_WHILE_BUSY`, the environment's policy for an edge while `ev_ready` = 0 (R84, decision D11). -/
inductive EdgePolicy where
  | drop
  | hold
deriving DecidableEq, Repr

/-- What the environment presents once `ev_ready` is back to 1, for an edge that came during the render: nothing under DROP;
under HOLD the event, its `now` sampled at that transfer (R84). The argument is the event with that `now`. -/
def EdgePolicy.sampleAfterRender (p : EdgePolicy) (heldAtTransfer : Instr) : PortIn :=
  match p with
  | .drop => sampleQuiet
  | .hold => sampleEvent heldAtTransfer

/-- The order in which the environment transfers two edges that come at once (R83, decision D12): both are admitted. -/
inductive EdgeOrder where
  | aFirst
  | bFirst
deriving DecidableEq, Repr

/-- The two events of simultaneous edges in the chosen order, the earlier clock sample first (R83). -/
def EdgeOrder.serialise (o : EdgeOrder) (first second : Nat) : Instr × Instr :=
  match o with
  | .aFirst => (.evA first, .evB second)
  | .bFirst => (.evB first, .evA second)

end Sys2Proof.Machine
end

