-- ==== Sys2Proof/Safety.lean ====
section
/-! DEFINITION. What a good state is, and what runs are said about: the invariant of 10_state.md R12 and R15 and
60_exceptions.md R79, and the traces of transferred and accepted events that the duty `MONO` (R94) and rule R100 speak of. -/

namespace Sys2Proof.Machine

/-- What holds in every state reachable from reset: SEL and K in range, no fault, DBT in its width, COLOR as loaded. -/
structure State.Inv (s : State) : Prop where
  /-- SEL in [0,10) (R12, R75). -/
  sel_lt : s.sel.toNat < 10
  /-- K in [0,25) (R15). -/
  k_lt : s.k.toNat < 25
  /-- No fault (R79). -/
  no_fault : s.fault = none
  /-- DBT has `TIME_W` bits (R13). -/
  dbt_lt : s.dbt < 2 ^ s.params.timeW
  /-- COLOR is the parameter (R14). -/
  color_eq : s.color = s.params.color

/-- The event transferred in the step from this state, if any (R21). -/
def State.transferred (s : State) : Option Instr :=
  match action s with
  | .event i => some i
  | _ => none

/-- The event accepted in the step from this state, if any (R70). -/
def State.accepted (s : State) : Option Instr :=
  s.transferred.filter (fun i => gate s.params.timeW i.now s.dbt)

/-- The outcome of `n` steps. -/
abbrev run (n : Nat) (s : State) : Host.Outcome State Fault Refusal :=
  Sys2Proof.core.run n s

/-- What `f` sees in the states from which the first `n` steps are taken, oldest first. -/
def trace {α : Type} (f : State → Option α) : Nat → State → List α
  | 0, _ => []
  | n + 1, s =>
    match step s with
    | .next t => (f s).toList ++ trace f n t
    | _ => []

/-- None of the first `n` steps is a reset. -/
abbrev resetFree (n : Nat) (s : State) : Prop :=
  trace (fun u => if u.portIn.rst then some () else none) n s = []

/-- The duty `MONO` (R94) over the next `n` steps, seen from a state that remembers DBT: each transferred `now` is at least
every earlier one and DBT. -/
abbrev monoDuty (n : Nat) (s : State) : Prop :=
  (s.dbt :: (trace State.transferred n s).map Instr.now).Pairwise (· ≤ ·)

/-- No sample of the list asserts `rst`. -/
def noReset (l : List PortIn) : Bool := l.all fun i => !i.rst

/-- How many samples of the list have `pix_ready` = 1. -/
def readyCount (l : List PortIn) : Nat := l.countP fun i => i.pixReady

/-- The last sample of the list has `pix_ready` = 1: the list ends with a transfer, not with a wait (duty `LIVE_PIX`, R94). -/
def endsReady (l : List PortIn) : Bool := l.getLast?.any fun i => i.pixReady

/-- `ws` are the words of the slots k, k+1, ... of frame `sel`, in slot order (R62, R63). -/
def SlotWords (p : Params) (color : Color) (sel : Sel) (k : Nat) (ws : List PixelWord) : Prop :=
  (List.range' k ws.length).map (fun j => word p color sel (BitVec.ofNat 5 j)) = ws.map .ok

end Sys2Proof.Machine
end

