-- ==== Sys2Proof/Certificates/Slice0/Obligations.lean ====
section
/-! DEFINITION. What is claimed of the model: the numbered rules of spec/, one definition for each claim. `s.advance` is `s` with
its input sample used up and every register as it was (claim `StepUsesOneSample`). -/

open Sys2Proof Sys2Proof.Machine

/-! ## Reset -/

/-- R25: the register values after reset, for every choice of the parameters, those of `State.reset` among them. -/
def Obligations.ResetLeavesSpecValues : Prop :=
  (∀ p : Params,
    (State.resetWith p).sel = 0 ∧ (State.resetWith p).dbt = 0 ∧ (State.resetWith p).color = p.color ∧
    (State.resetWith p).k = 0 ∧ (State.resetWith p).phase = (if p.bootRender then .render else .idle) ∧
    (State.resetWith p).fault = none ∧ (State.resetWith p).params = p) ∧
  ∃ p : Params, State.reset = State.resetWith p

/-- R95: a reset step from any state. It sets the reset values, takes no event, delivers no word; a render it cuts short has
delivered its slots before K, in order, and no more. -/
def Obligations.ResetStepFromAnyState : Prop :=
  (∀ s : State, s.portIn.rst = true →
    step s = .next { s.advance with
      sel := 0, dbt := 0, color := s.params.color, k := 0, fault := none
      phase := if s.params.bootRender then .render else .idle } ∧
    s.transferred = none ∧ s.advance.pixOut = s.pixOut) ∧
  (∀ (s : State) (l rest : List PortIn) (x : PortIn),
    s.phase = .render → s.fault = none → s.k = 0 → s.sel.toNat < 10 →
    s.inputs = l ++ x :: rest → noReset l = true → readyCount l < 25 → x.rst = true →
    ∃ ws, ws.length = readyCount l ∧ SlotWords s.params s.color s.sel 0 ws ∧
      run (l.length + 1) s = .next { s with
        sel := 0, dbt := 0, color := s.params.color, k := 0, fault := none
        phase := if s.params.bootRender then .render else .idle
        inputs := rest, pixOut := s.pixOut ++ ws })

/-- R96: after reset the event port is open if `BOOT_RENDER` is false; if it is true, the port is closed until the boot render's
25th write, and open then. -/
def Obligations.PortAfterReset : Prop :=
  ∀ (p : Params) (l rest : List PortIn),
    (p.bootRender = false → (State.resetWith p).evReady = true) ∧
    (p.bootRender = true → noReset l = true → readyCount l < 25 →
      ∃ t, run l.length { State.resetWith p with inputs := l ++ rest } = .next t ∧ t.evReady = false) ∧
    (p.bootRender = true → noReset l = true → readyCount l = 25 → endsReady l = true →
      ∃ t, run l.length { State.resetWith p with inputs := l ++ rest } = .next t ∧ t.evReady = true)

/-! ## The step and the ports -/

/-- A step runs the decoded event: with no reset, an open port and an offered event, the step is `exec` of the event that the
decoder reads from the port's record. Around it the step only uses up its input sample. -/
def Obligations.StepRunsOfferedEvent : Prop :=
  ∀ (s : State) (i : Instr), s.portIn.rst = false → s.evReady = true → s.portIn.evValid = true →
    decode s.params.timeW (s.portIn.record s.params.timeW) = .ok i →
    step s = exec i s.advance

/-- R21: when an event is transferred, and which. The operand is `ev_now` on its `TIME_W` wires. -/
def Obligations.EventPortTransfers : Prop :=
  ∀ s : State,
    (s.portIn.rst = false → s.evReady = true → s.portIn.evValid = true →
      s.transferred = some (if s.portIn.evPin = 0 then .evA (s.portIn.evNow % 2 ^ s.params.timeW)
        else .evB (s.portIn.evNow % 2 ^ s.params.timeW))) ∧
    (s.portIn.rst = true ∨ s.evReady = false ∨ s.portIn.evValid = false → s.transferred = none)

/-- R20, R23, R24: the output ports. The two ports are never open at once, and in a state that meets the invariant an open pixel
port carries a word. -/
def Obligations.OutputPorts : Prop :=
  ∀ s : State,
    (s.evReady = true ↔ s.phase = .idle ∧ s.fault = none) ∧
    (s.pixValid = true ↔ s.phase = .render ∧ s.fault = none) ∧
    ¬(s.evReady = true ∧ s.pixValid = true) ∧
    s.selOut = s.sel ∧
    (s.pixValid = false → s.pixWord = none) ∧
    (s.Inv → s.pixValid = true → ∃ w, s.pixWord = some w ∧ word s.params s.color s.sel s.k = .ok w)

/-- No run of the model stops, from any state and on any input, with a fault or a refusal. For runs from reset this is R79, and
R94 says that the rules are total on every input value. Over every state it is the MODEL'S CHOICE: raising a fault is a next state
(log entry 8), and a block with no enabled step waits (log entry 3), where R80 and U15 call the faulted block stuck. -/
def Obligations.NoRunEverStops : Prop :=
  ∀ (n : Nat) (s : State), ∃ t, run n s = .next t

/-- The model's reading of R32 (log entry 1): a step uses up exactly one input sample, the listed one if there is one. -/
def Obligations.StepUsesOneSample : Prop :=
  ∀ s t : State, step s = .next t →
    t.inputs = s.inputs.tail ∧ t.tick = (if s.inputs = [] then s.tick + 1 else s.tick) ∧
    s.advance = { s with inputs := t.inputs, tick := t.tick }

/-- R93: while the block waits in IDLE every register keeps its value, for any number of steps. That a wait is a step of the model,
where R69 and R93 say that the block has none, is the model's choice (log entry 3). -/
def Obligations.IdleWaitKeepsRegisters : Prop :=
  ∀ (s : State) (l rest : List PortIn), s.evReady = true → s.inputs = l ++ rest →
    (∀ i ∈ l, i.rst = false ∧ i.evValid = false) →
    run l.length s = .next { s with inputs := rest }

/-- R11 with the table of R10: each register changes only where one of the rules named in its row acts. -/
def Obligations.RegistersWrittenByTheirRules : Prop :=
  ∀ s t : State, step s = .next t →
    (t.sel ≠ s.sel → action s = .reset ∨ s.accepted.isSome = true) ∧
    (t.dbt ≠ s.dbt → action s = .reset ∨ ∃ i, s.accepted = some i ∧ t.dbt = i.now) ∧
    (t.color ≠ s.color → action s = .reset) ∧
    (t.phase ≠ s.phase → action s = .reset ∨ s.accepted.isSome = true ∨ (action s = .slot true ∧ s.k = 24)) ∧
    (t.k ≠ s.k → action s = .reset ∨ s.accepted.isSome = true ∨ action s = .slot true) ∧
    (t.fault ≠ s.fault → action s = .reset ∨ (action s = .slot true ∧ ∃ r, s.slotWord = .error r)) ∧
    t.params = s.params

/-- R38: a glyph cell reads the same for the whole life of the block. -/
def Obligations.GlyphsNeverChange : Prop :=
  ∀ (n : Nat) (s t : State), run n s = .next t → ∀ (f : Sel) (c : Index), glyphRead t.params f c = glyphRead s.params f c

/-! ## The invariant -/

/-- The invariant holds right after reset, whatever the parameters and the input. -/
def Obligations.ResetMeetsInv : Prop :=
  State.reset.Inv ∧ ∀ (p : Params) (l : List PortIn), ({ State.resetWith p with inputs := l } : State).Inv

/-- Every step keeps the invariant: SEL and K in range, no fault, DBT in its width, COLOR as loaded. -/
def Obligations.StepKeepsInv : Prop :=
  ∀ s t : State, s.Inv → step s = .next t → t.Inv

/-- R75, R79: in every state that a run from reset reaches, on any input, SEL is in [0,10) and there is no fault. -/
def Obligations.ReachableSelIsLegal : Prop :=
  ∀ (p : Params) (l : List PortIn) (n : Nat), ∃ t : State,
    run n { State.resetWith p with inputs := l } = .next t ∧ t.sel.toNat < 10 ∧ t.fault = none

/-! ## Glyph ROM -/

/-- R51: GlyphRead reads the fixed glyph for frame 0 and the parameter for frames 1..9, and faults outside its domain, on the
frame first. -/
def Obligations.GlyphReadValue : Prop :=
  ∀ (p : Params) (f : Sel) (c : Index),
    (f = 0 → c.toNat < 25 → glyphRead p f c = .ok ((0x0E5294E : Glyph).getLsbD c.toNat)) ∧
    (∀ h : f.toNat - 1 < 9, 1 ≤ f.toNat → c.toNat < 25 → glyphRead p f c = .ok (p.glyphs[f.toNat - 1].getLsbD c.toNat)) ∧
    (10 ≤ f.toNat → glyphRead p f c = .error (.frameOutOfRange f)) ∧
    (f.toNat < 10 → 25 ≤ c.toNat → glyphRead p f c = .error (.indexOutOfRange c))

/-- R52: glyph 0, cell by cell, for every choice of the parameters. -/
def Obligations.GlyphZeroPattern : Prop :=
  ∀ p : Params, (List.range 25).map (fun c => glyphRead p 0 (BitVec.ofNat 5 c)) =
    [0,1,1,1,0, 0,1,0,1,0, 0,1,0,1,0, 0,1,0,1,0, 0,1,1,1,0].map fun b : Nat => .ok (b == 1)

/-- R33: in the flat view of the ROM, cell (f, c) is at bit 25*f + c. -/
def Obligations.FlatRomView : Prop :=
  ∀ (p : Params) (f c : Nat), f < 10 → c < 25 →
    glyphRead p (BitVec.ofNat 4 f) (BitVec.ofNat 5 c) = .ok ((flatRom p).getLsbD (25 * f + c))

/-! ## Index corrector -/

/-- R56: the complete value table of the corrector. -/
def Obligations.CorrTable : Prop :=
  (List.range 25).map (fun i => corr (BitVec.ofNat 5 i)) =
    [24,23,22,21,20, 15,16,17,18,19, 14,13,12,11,10, 5,6,7,8,9, 4,3,2,1,0].map .ok

/-- R57, R58, R59: on its domain the corrector is a bijection of [0,25), its own inverse, with the one fixed point 12. -/
def Obligations.CorrIsInvolution : Prop :=
  (∀ i : Index, i.toNat < 25 → ∃ c, corr i = .ok c ∧ c.toNat < 25 ∧ corr c = .ok i ∧ (c = i ↔ i = 12)) ∧
  (∀ i j c : Index, corr i = .ok c → corr j = .ok c → i = j) ∧
  (∀ c : Index, c.toNat < 25 → ∃ i, i.toNat < 25 ∧ corr i = .ok c)

/-- R60: the corrector is a half turn composed with the odd-row reversal, in either order. -/
def Obligations.CorrIsTurnedSerpentine : Prop :=
  ∀ i : Nat, i < 25 →
    corr (BitVec.ofNat 5 i) = .ok (BitVec.ofNat 5 (24 - serp i)) ∧
    corr (BitVec.ofNat 5 i) = .ok (BitVec.ofNat 5 (serp (24 - i)))

/-- R61: the corrector faults exactly outside its domain, and records the index. -/
def Obligations.CorrFaultsOutsideDomain : Prop :=
  ∀ (i : Index) (r : Fault), corr i = .error r ↔ 25 ≤ i.toNat ∧ r = .indexOutOfRange i

/-! ## Renderer -/

/-- R63: the word of a slot is decided by the cell at the corrected index, its errors are those of the two lookups, and a black
colour gives the zero word everywhere. -/
def Obligations.SlotWordValue : Prop :=
  ∀ (p : Params) (color : Color) (sel : Sel) (k : Index),
    (sel.toNat < 10 → k.toNat < 25 → ∃ c b, corr k = .ok c ∧ glyphRead p sel c = .ok b ∧
      word p color sel k = .ok (if b then pack p color else 0) ∧
      (color = ⟨0, 0, 0⟩ → word p color sel k = .ok 0)) ∧
    (25 ≤ k.toNat → word p color sel k = .error (.indexOutOfRange k)) ∧
    (10 ≤ sel.toNat → k.toNat < 25 → word p color sel k = .error (.frameOutOfRange sel))

/-- R44: every word a step delivers is OFF_WORD or ON_WORD, at most one word is delivered in a step, and (0,0,0) packs to 0. -/
def Obligations.DeliveredWordIsOnOrOff : Prop :=
  (∀ p : Params, pack p ⟨0, 0, 0⟩ = 0) ∧
  ∀ s t : State, step s = .next t →
    t.pixOut = s.pixOut ∨
    (action s = .slot true ∧ (t.pixOut = s.pixOut ++ [0] ∨ t.pixOut = s.pixOut ++ [pack s.params s.color]))

/-- R65: the slot step. Without `pix_ready` nothing changes and the offered word is stable; with it slot K is delivered and K
moves on, or after slot 24 PHASE returns to IDLE and K stays. SEL, DBT and COLOR are as before. -/
def Obligations.SlotStepDelivers : Prop :=
  ∀ s : State, s.portIn.rst = false → s.phase = .render → s.fault = none →
    (s.portIn.pixReady = false → step s = .next s.advance ∧ s.advance.pixWord = s.pixWord) ∧
    (s.portIn.pixReady = true → s.sel.toNat < 10 → s.k.toNat < 25 → ∃ w,
      word s.params s.color s.sel s.k = .ok w ∧ s.pixWord = some w ∧
      (s.k = 24 → step s = .next { s.advance with pixOut := s.pixOut ++ [w], phase := .idle }) ∧
      (s.k ≠ 24 → step s = .next { s.advance with pixOut := s.pixOut ++ [w], k := s.k + 1 }))

/-- R62, R66: a render that no reset cuts short delivers one word for each slot that is left, in slot order, however often the
consumer makes it wait; then the block is back in IDLE. From a render's start, where K = 0, these are exactly 25 words. -/
def Obligations.RenderDeliversEverySlot : Prop :=
  ∀ (s : State) (l rest : List PortIn), s.phase = .render → s.fault = none → s.sel.toNat < 10 → s.k.toNat < 25 →
    s.inputs = l ++ rest → noReset l = true → readyCount l = 25 - s.k.toNat → endsReady l = true →
    ∃ ws, ws.length = 25 - s.k.toNat ∧ SlotWords s.params s.color s.sel s.k.toNat ws ∧
      run l.length s = .next { s with phase := .idle, k := 24, inputs := rest, pixOut := s.pixOut ++ ws }

/-- R67: the render of frame 0, for every choice of the parameters and every colour; it equals the glyph's own cell order. -/
def Obligations.FrameZeroRender : Prop :=
  (∀ s : State, ∀ rest : List PortIn, s.phase = .render → s.fault = none → s.sel = 0 → s.k = 0 →
    s.inputs = List.replicate 25 sampleReady ++ rest →
    ∃ ws, ws = [0,1,1,1,0, 0,1,0,1,0, 0,1,0,1,0, 0,1,0,1,0, 0,1,1,1,0].map
        (fun b : Nat => if b = 1 then pack s.params s.color else 0) ∧
      run 25 s = .next { s with phase := .idle, k := 24, inputs := rest, pixOut := s.pixOut ++ ws }) ∧
  ∀ (p : Params) (k c : Index), corr k = .ok c → glyphRead p 0 c = glyphRead p 0 k

/-- R81: while the consumer accepts nothing the block stays in RENDER at the same K with the event port closed, for any number
of steps and whatever events are offered. -/
def Obligations.RenderHangsWithoutConsumer : Prop :=
  ∀ (s : State) (l rest : List PortIn), s.phase = .render → s.fault = none → s.inputs = l ++ rest → noReset l = true →
    readyCount l = 0 →
    run l.length s = .next { s with inputs := rest } ∧ s.evReady = false

/-- R99, R78: a render does not depend on what is offered on the event port. -/
def Obligations.RenderIgnoresEventPort : Prop :=
  ∀ (s : State) (x y : PortIn) (rest : List PortIn), s.phase = .render → x.rst = y.rst → x.pixReady = y.pixReady →
    step { s with inputs := x :: rest } = step { s with inputs := y :: rest }

/-! ## Selection and the debounce gate -/

/-- R70: the gate is the strict test on the unsigned `TIME_W`-bit difference, at every width; with times in range and in order
the difference is the elapsed time. -/
def Obligations.GateIsStrictModularTest : Prop :=
  ∀ w now dbt : Nat,
    (gate w now dbt = true ↔ 250000 < (BitVec.ofNat w now - BitVec.ofNat w dbt).toNat) ∧
    (dbt ≤ now → now < 2 ^ w → (gate w now dbt = true ↔ 250000 < now - dbt))

/-- R7: the gate can pass exactly at the widths from 18 on, the legal ones. -/
def Obligations.GatePassesFromWidth18 : Prop :=
  ∀ w : Nat, (∃ now dbt : Nat, gate w now dbt = true) ↔ 18 ≤ w

/-- R73: `EV_B` accepted. It completes with DBT, the incremented SEL (for all sixteen values) and a render started, and
nothing else changed. -/
def Obligations.EvBAcceptedIncrements : Prop :=
  ∀ (s : State) (now : Nat), s.phase = .idle → s.fault = none → now < 2 ^ s.params.timeW →
    gate s.params.timeW now s.dbt = true →
    exec (.evB now) s = .next { s with
      dbt := now, sel := BitVec.ofNat 4 ((s.sel.toNat + 1) % 10), k := 0, phase := .render }

/-- R74: `EV_A` accepted. SEL in 1..10 goes down by one; 0 and every other value goes to 9. It completes with DBT and a render
started, and nothing else changed. -/
def Obligations.EvAAcceptedDecrements : Prop :=
  ∀ (s : State) (now : Nat), s.phase = .idle → s.fault = none → now < 2 ^ s.params.timeW →
    gate s.params.timeW now s.dbt = true →
    exec (.evA now) s = .next { s with
      dbt := now, k := 0, phase := .render
      sel := if 1 ≤ s.sel.toNat ∧ s.sel.toNat ≤ 10 then BitVec.ofNat 4 (s.sel.toNat - 1) else 9 }

/-- R72: an event of either kind that fails the gate is transferred and changes nothing: no register, no word delivered. -/
def Obligations.EventInsideWindowIsDropped : Prop :=
  (∀ (s : State) (now : Nat), s.phase = .idle → s.fault = none → gate s.params.timeW now s.dbt = false →
    exec (.evA now) s = .next s ∧ exec (.evB now) s = .next s) ∧
  (∀ (s : State) (i : Instr), s.transferred = some i → s.accepted = none → step s = .next s.advance)

/-- The model's reading of R21 for `exec` taken alone (log entry 11): at a closed port no event has an effect. -/
def Obligations.ClosedPortTakesNoEvent : Prop :=
  ∀ (s : State) (i : Instr), s.phase = .render ∨ s.fault ≠ none → exec i s = .next s

/-- R85: an event step is precise and its frame is everything but DBT, SEL, PHASE and K: both event kinds are either wholly
accepted or change nothing; no word is delivered and every glyph cell reads as before. -/
def Obligations.EventIsPrecise : Prop :=
  ∀ (s t : State) (i : Instr), exec i s = .next t →
    (t = s ∨
      (gate s.params.timeW i.now s.dbt = true ∧ t.dbt = i.now % 2 ^ s.params.timeW ∧ t.sel.toNat < 10 ∧ t.sel ≠ s.sel ∧
        t.phase = .render ∧ t.k = 0)) ∧
    t.color = s.color ∧ t.fault = s.fault ∧ t.params = s.params ∧ t.inputs = s.inputs ∧ t.tick = s.tick ∧
    t.pixOut = s.pixOut ∧ ∀ (f : Sel) (c : Index), glyphRead t.params f c = glyphRead s.params f c

/-- R76: the window is shared. After an accepted event of either kind, an event of either kind at most 250000 later is dropped
in every state that still has the DBT the first one set. -/
def Obligations.WindowIsShared : Prop :=
  ∀ (s t u : State) (i j : Instr), s.evReady = true → gate s.params.timeW i.now s.dbt = true →
    i.now ≤ j.now → j.now < 2 ^ s.params.timeW → j.now - i.now ≤ 250000 →
    exec i s = .next t → u.dbt = t.dbt → u.params = t.params → exec j u = .next u

/-- R77, R101: the first event after reset is compared with DBT = 0, so it is accepted exactly if its `now` > 250000. -/
def Obligations.FirstEventEdge : Prop :=
  ∀ (p : Params) (l : List PortIn) (i : Instr), p.bootRender = false → i.now < 2 ^ p.timeW →
    (250000 < i.now → ∃ t, exec i { State.resetWith p with inputs := l } = .next t ∧ t.dbt = i.now ∧ t.phase = .render ∧
      t.sel = (match i with | .evA _ => 9 | .evB _ => 1)) ∧
    (i.now ≤ 250000 → exec i { State.resetWith p with inputs := l } = .next { State.resetWith p with inputs := l })

/-- R35, R78: the order of one accepted event. DBT and SEL are written in its step; until the 25th write no further event is
taken, whatever is offered; the 25 words are those of the SEL that this event wrote, in slot order; then the port is open. -/
def Obligations.EventHandledToCompletion : Prop :=
  ∀ (s : State) (i : Instr) (x : PortIn) (l rest : List PortIn), s.accepted = some i → s.inputs = x :: (l ++ rest) →
    noReset l = true →
    ∃ t, step s = .next t ∧ t.dbt = i.now ∧ t.sel.toNat < 10 ∧ t.pixOut = s.pixOut ∧
      (readyCount l < 25 → ∃ u ws, run (l.length + 1) s = .next u ∧ u.evReady = false ∧ u.transferred = none ∧
        u.sel = t.sel ∧ u.dbt = t.dbt ∧ ws.length = readyCount l ∧ SlotWords s.params s.color t.sel 0 ws ∧
        u.pixOut = s.pixOut ++ ws) ∧
      (readyCount l = 25 → endsReady l = true → ∃ u ws, run (l.length + 1) s = .next u ∧ u.evReady = true ∧
        u.sel = t.sel ∧ u.dbt = t.dbt ∧ ws.length = 25 ∧ SlotWords s.params s.color t.sel 0 ws ∧
        u.pixOut = s.pixOut ++ ws)

/-- R100: in any reset-free run in which the environment keeps `MONO`, any two accepted events, of either kind, are more than
250000 apart; the first is that far from the DBT the run starts with. It holds at every width. -/
def Obligations.AcceptedEventsAreApart : Prop :=
  ∀ (n : Nat) (s : State), resetFree n s → monoDuty n s →
    (s.dbt :: (trace State.accepted n s).map Instr.now).Pairwise fun a b => 250000 < b - a

/-- R13: under `MONO`, DBT never decreases in a reset-free run. -/
def Obligations.DbtNeverDecreases : Prop :=
  ∀ (n : Nat) (s t : State), resetFree n s → monoDuty n s → run n s = .next t → s.dbt ≤ t.dbt

/-! ## Faults -/

/-- R80: raising a fault records the reason, its code and its value and changes nothing else; a faulted block has both ports
closed and no step but reset, for any number of steps. Three things are the MODEL'S CHOICE, beside R63 and R65: the slot faults in the
step with `pix_ready` = 1 and delivers no word (log entry 9), PHASE and K stay as they are (log entry 10), and a faulted block's
waiting is a step that changes no register (log entry 3). -/
def Obligations.FaultIsAbsorbing : Prop :=
  (∀ s : State, s.portIn.rst = false → s.phase = .render → s.fault = none → s.portIn.pixReady = true →
    (25 ≤ s.k.toNat → step s = .next { s.advance with fault := some (.indexOutOfRange s.k) }) ∧
    (10 ≤ s.sel.toNat → s.k.toNat < 25 → step s = .next { s.advance with fault := some (.frameOutOfRange s.sel) })) ∧
  (∀ (f : Sel) (i : Index), (Fault.frameOutOfRange f).code = 1 ∧ (Fault.frameOutOfRange f).value = f.toNat ∧
    (Fault.indexOutOfRange i).code = 2 ∧ (Fault.indexOutOfRange i).value = i.toNat) ∧
  (∀ (s : State) (l rest : List PortIn), s.fault ≠ none → s.inputs = l ++ rest → noReset l = true →
    run l.length s = .next { s with inputs := rest } ∧ s.evReady = false ∧ s.pixValid = false)

/-! ## The environment's choices -/

/-- R84: an edge that came during a render, at the first step with the port open again. Under DROP nothing happens; under HOLD
the event, stamped at that transfer, is accepted exactly if its `now` is more than 250000 after DBT. That the wait under DROP is a
step of the model is the model's choice (log entry 3). -/
def Obligations.EdgeDuringRender : Prop :=
  ∀ (s : State) (i : Instr) (rest : List PortIn), s.evReady = true → s.dbt ≤ i.now → i.now < 2 ^ s.params.timeW →
    step { s with inputs := EdgePolicy.drop.sampleAfterRender i :: rest } = .next { s with inputs := rest } ∧
    (250000 < i.now - s.dbt → ∃ t, step { s with inputs := EdgePolicy.hold.sampleAfterRender i :: rest } = .next t ∧
      t.dbt = i.now ∧ t.phase = .render ∧ t.sel ≠ s.sel) ∧
    (i.now - s.dbt ≤ 250000 →
      step { s with inputs := EdgePolicy.hold.sampleAfterRender i :: rest } = .next { s with inputs := rest })

/-- R83: simultaneous edges in either order. If the first is accepted and the second comes within the window, only the first
one's transition happens, also after the first one's render. -/
def Obligations.SimultaneousEdges : Prop :=
  ∀ (s : State) (o : EdgeOrder) (first second : Nat) (rest : List PortIn), s.evReady = true → s.sel.toNat < 10 →
    first ≤ second → second < 2 ^ s.params.timeW → second - first ≤ 250000 →
    gate s.params.timeW first s.dbt = true →
    s.inputs = sampleEvent (o.serialise first second).1 ::
      (List.replicate 25 sampleReady ++ sampleEvent (o.serialise first second).2 :: rest) →
    ∃ t, run 27 s = .next t ∧ t.dbt = first ∧ t.phase = .idle ∧ t.inputs = rest ∧ t.pixOut.length = s.pixOut.length + 25 ∧
      t.sel = (match o with
        | .aFirst => if s.sel = 0 then 9 else s.sel - 1
        | .bFirst => if s.sel = 9 then 0 else s.sel + 1)

/-! ## Encoding -/

/-- Decoding an encoded well-formed event gives it back, at every width and with every operand the width admits. -/
def Obligations.DecodeOfEncode : Prop :=
  ∀ (w : Nat) (i : Instr), i.wellFormed w = true → encode i < 2 ^ (w + 1) ∧ decode w (encode i) = .ok i

/-- R41: the event map is complete. Every record of 1 + `TIME_W` bits is exactly one well-formed event, selected by the pin bit
alone, and without `ev_valid` the other event lines are ignored. The second clause, that the decoder rejects a wider number by
`recordTooWide`, is the MODEL'S CHOICE (log entry 12): R41 says nothing of it. -/
def Obligations.EventMapIsComplete : Prop :=
  (∀ w r : Nat, r < 2 ^ (w + 1) → ∃ i, decode w r = .ok i ∧ i.wellFormed w = true ∧ encode i = r ∧
    (i = if r % 2 = 0 then .evA (r / 2) else .evB (r / 2))) ∧
  (∀ w r : Nat, 2 ^ (w + 1) ≤ r → decode w r = .error .recordTooWide) ∧
  (∀ (s : State) (x y : PortIn) (rest : List PortIn), x.evValid = false → y.evValid = false → x.rst = y.rst →
    x.pixReady = y.pixReady → step { s with inputs := x :: rest } = step { s with inputs := y :: rest })

/-- Records written out in 95_test_vectors.md P1 and P2, decoded at the default width. -/
def Obligations.RecordsOfTheTestVectors : Prop :=
  decode 64 0x927C1 = .ok (.evB 300000) ∧ decode 64 0x18B822 = .ok (.evA 810001) ∧
  decode 64 0x7A120 = .ok (.evA 250000) ∧ decode 64 0xF4245 = .ok (.evB 500002)
end

