-- ==== Sys2Proof/Laws/State.lean ====
section
/-! SUPPORT. One lemma for each field under each update of the state, true by rfl, so that no proof unfolds a record update. -/

namespace Sys2Proof.Machine.State

variable (s : State)

@[simp] theorem setSel_sel (v : Sel) : (s.setSel v).sel = v := rfl
@[simp] theorem setSel_dbt (v : Sel) : (s.setSel v).dbt = s.dbt := rfl
@[simp] theorem setSel_color (v : Sel) : (s.setSel v).color = s.color := rfl
@[simp] theorem setSel_phase (v : Sel) : (s.setSel v).phase = s.phase := rfl
@[simp] theorem setSel_k (v : Sel) : (s.setSel v).k = s.k := rfl
@[simp] theorem setSel_fault (v : Sel) : (s.setSel v).fault = s.fault := rfl
@[simp] theorem setSel_params (v : Sel) : (s.setSel v).params = s.params := rfl
@[simp] theorem setSel_inputs (v : Sel) : (s.setSel v).inputs = s.inputs := rfl
@[simp] theorem setSel_tick (v : Sel) : (s.setSel v).tick = s.tick := rfl
@[simp] theorem setSel_pixOut (v : Sel) : (s.setSel v).pixOut = s.pixOut := rfl

@[simp] theorem setDbt_sel (v : Nat) : (s.setDbt v).sel = s.sel := rfl
@[simp] theorem setDbt_dbt (v : Nat) : (s.setDbt v).dbt = v % 2 ^ s.params.timeW := rfl
@[simp] theorem setDbt_color (v : Nat) : (s.setDbt v).color = s.color := rfl
@[simp] theorem setDbt_phase (v : Nat) : (s.setDbt v).phase = s.phase := rfl
@[simp] theorem setDbt_k (v : Nat) : (s.setDbt v).k = s.k := rfl
@[simp] theorem setDbt_fault (v : Nat) : (s.setDbt v).fault = s.fault := rfl
@[simp] theorem setDbt_params (v : Nat) : (s.setDbt v).params = s.params := rfl
@[simp] theorem setDbt_inputs (v : Nat) : (s.setDbt v).inputs = s.inputs := rfl
@[simp] theorem setDbt_tick (v : Nat) : (s.setDbt v).tick = s.tick := rfl
@[simp] theorem setDbt_pixOut (v : Nat) : (s.setDbt v).pixOut = s.pixOut := rfl

@[simp] theorem setK_sel (v : Index) : (s.setK v).sel = s.sel := rfl
@[simp] theorem setK_dbt (v : Index) : (s.setK v).dbt = s.dbt := rfl
@[simp] theorem setK_color (v : Index) : (s.setK v).color = s.color := rfl
@[simp] theorem setK_phase (v : Index) : (s.setK v).phase = s.phase := rfl
@[simp] theorem setK_k (v : Index) : (s.setK v).k = v := rfl
@[simp] theorem setK_fault (v : Index) : (s.setK v).fault = s.fault := rfl
@[simp] theorem setK_params (v : Index) : (s.setK v).params = s.params := rfl
@[simp] theorem setK_inputs (v : Index) : (s.setK v).inputs = s.inputs := rfl
@[simp] theorem setK_tick (v : Index) : (s.setK v).tick = s.tick := rfl
@[simp] theorem setK_pixOut (v : Index) : (s.setK v).pixOut = s.pixOut := rfl

@[simp] theorem setPhase_sel (v : Phase) : (s.setPhase v).sel = s.sel := rfl
@[simp] theorem setPhase_dbt (v : Phase) : (s.setPhase v).dbt = s.dbt := rfl
@[simp] theorem setPhase_color (v : Phase) : (s.setPhase v).color = s.color := rfl
@[simp] theorem setPhase_phase (v : Phase) : (s.setPhase v).phase = v := rfl
@[simp] theorem setPhase_k (v : Phase) : (s.setPhase v).k = s.k := rfl
@[simp] theorem setPhase_fault (v : Phase) : (s.setPhase v).fault = s.fault := rfl
@[simp] theorem setPhase_params (v : Phase) : (s.setPhase v).params = s.params := rfl
@[simp] theorem setPhase_inputs (v : Phase) : (s.setPhase v).inputs = s.inputs := rfl
@[simp] theorem setPhase_tick (v : Phase) : (s.setPhase v).tick = s.tick := rfl
@[simp] theorem setPhase_pixOut (v : Phase) : (s.setPhase v).pixOut = s.pixOut := rfl

@[simp] theorem raiseFault_sel (v : Fault) : (s.raiseFault v).sel = s.sel := rfl
@[simp] theorem raiseFault_dbt (v : Fault) : (s.raiseFault v).dbt = s.dbt := rfl
@[simp] theorem raiseFault_color (v : Fault) : (s.raiseFault v).color = s.color := rfl
@[simp] theorem raiseFault_phase (v : Fault) : (s.raiseFault v).phase = s.phase := rfl
@[simp] theorem raiseFault_k (v : Fault) : (s.raiseFault v).k = s.k := rfl
@[simp] theorem raiseFault_fault (v : Fault) : (s.raiseFault v).fault = some v := rfl
@[simp] theorem raiseFault_params (v : Fault) : (s.raiseFault v).params = s.params := rfl
@[simp] theorem raiseFault_inputs (v : Fault) : (s.raiseFault v).inputs = s.inputs := rfl
@[simp] theorem raiseFault_tick (v : Fault) : (s.raiseFault v).tick = s.tick := rfl
@[simp] theorem raiseFault_pixOut (v : Fault) : (s.raiseFault v).pixOut = s.pixOut := rfl

@[simp] theorem pixWrite_sel (v : PixelWord) : (s.pixWrite v).sel = s.sel := rfl
@[simp] theorem pixWrite_dbt (v : PixelWord) : (s.pixWrite v).dbt = s.dbt := rfl
@[simp] theorem pixWrite_color (v : PixelWord) : (s.pixWrite v).color = s.color := rfl
@[simp] theorem pixWrite_phase (v : PixelWord) : (s.pixWrite v).phase = s.phase := rfl
@[simp] theorem pixWrite_k (v : PixelWord) : (s.pixWrite v).k = s.k := rfl
@[simp] theorem pixWrite_fault (v : PixelWord) : (s.pixWrite v).fault = s.fault := rfl
@[simp] theorem pixWrite_params (v : PixelWord) : (s.pixWrite v).params = s.params := rfl
@[simp] theorem pixWrite_inputs (v : PixelWord) : (s.pixWrite v).inputs = s.inputs := rfl
@[simp] theorem pixWrite_tick (v : PixelWord) : (s.pixWrite v).tick = s.tick := rfl
@[simp] theorem pixWrite_pixOut (v : PixelWord) : (s.pixWrite v).pixOut = s.pixOut ++ [v] := rfl

@[simp] theorem startRender_sel : (s.startRender).sel = s.sel := rfl
@[simp] theorem startRender_dbt : (s.startRender).dbt = s.dbt := rfl
@[simp] theorem startRender_color : (s.startRender).color = s.color := rfl
@[simp] theorem startRender_phase : (s.startRender).phase = .render := rfl
@[simp] theorem startRender_k : (s.startRender).k = 0 := rfl
@[simp] theorem startRender_fault : (s.startRender).fault = s.fault := rfl
@[simp] theorem startRender_params : (s.startRender).params = s.params := rfl
@[simp] theorem startRender_inputs : (s.startRender).inputs = s.inputs := rfl
@[simp] theorem startRender_tick : (s.startRender).tick = s.tick := rfl
@[simp] theorem startRender_pixOut : (s.startRender).pixOut = s.pixOut := rfl

@[simp] theorem completeRender_sel : (s.completeRender).sel = s.sel := rfl
@[simp] theorem completeRender_dbt : (s.completeRender).dbt = s.dbt := rfl
@[simp] theorem completeRender_color : (s.completeRender).color = s.color := rfl
@[simp] theorem completeRender_phase : (s.completeRender).phase = .idle := rfl
@[simp] theorem completeRender_k : (s.completeRender).k = s.k := rfl
@[simp] theorem completeRender_fault : (s.completeRender).fault = s.fault := rfl
@[simp] theorem completeRender_params : (s.completeRender).params = s.params := rfl
@[simp] theorem completeRender_inputs : (s.completeRender).inputs = s.inputs := rfl
@[simp] theorem completeRender_tick : (s.completeRender).tick = s.tick := rfl
@[simp] theorem completeRender_pixOut : (s.completeRender).pixOut = s.pixOut := rfl

@[simp] theorem resetRegisters_sel : (s.resetRegisters).sel = 0 := rfl
@[simp] theorem resetRegisters_dbt : (s.resetRegisters).dbt = 0 := rfl
@[simp] theorem resetRegisters_color : (s.resetRegisters).color = s.params.color := rfl
@[simp] theorem resetRegisters_phase : (s.resetRegisters).phase = if s.params.bootRender then .render else .idle := rfl
@[simp] theorem resetRegisters_k : (s.resetRegisters).k = 0 := rfl
@[simp] theorem resetRegisters_fault : (s.resetRegisters).fault = none := rfl
@[simp] theorem resetRegisters_params : (s.resetRegisters).params = s.params := rfl
@[simp] theorem resetRegisters_inputs : (s.resetRegisters).inputs = s.inputs := rfl
@[simp] theorem resetRegisters_tick : (s.resetRegisters).tick = s.tick := rfl
@[simp] theorem resetRegisters_pixOut : (s.resetRegisters).pixOut = s.pixOut := rfl

@[simp] theorem increment_sel : (s.increment).sel = selIncrement s.sel := rfl
@[simp] theorem increment_dbt : (s.increment).dbt = s.dbt := rfl
@[simp] theorem increment_color : (s.increment).color = s.color := rfl
@[simp] theorem increment_phase : (s.increment).phase = s.phase := rfl
@[simp] theorem increment_k : (s.increment).k = s.k := rfl
@[simp] theorem increment_fault : (s.increment).fault = s.fault := rfl
@[simp] theorem increment_params : (s.increment).params = s.params := rfl
@[simp] theorem increment_inputs : (s.increment).inputs = s.inputs := rfl
@[simp] theorem increment_tick : (s.increment).tick = s.tick := rfl
@[simp] theorem increment_pixOut : (s.increment).pixOut = s.pixOut := rfl

@[simp] theorem decrement_sel : (s.decrement).sel = selDecrement s.sel := rfl
@[simp] theorem decrement_dbt : (s.decrement).dbt = s.dbt := rfl
@[simp] theorem decrement_color : (s.decrement).color = s.color := rfl
@[simp] theorem decrement_phase : (s.decrement).phase = s.phase := rfl
@[simp] theorem decrement_k : (s.decrement).k = s.k := rfl
@[simp] theorem decrement_fault : (s.decrement).fault = s.fault := rfl
@[simp] theorem decrement_params : (s.decrement).params = s.params := rfl
@[simp] theorem decrement_inputs : (s.decrement).inputs = s.inputs := rfl
@[simp] theorem decrement_tick : (s.decrement).tick = s.tick := rfl
@[simp] theorem decrement_pixOut : (s.decrement).pixOut = s.pixOut := rfl

/-! `advance` changes the input stream alone. -/

@[simp] theorem advance_sel : s.advance.sel = s.sel := by unfold advance; split <;> rfl
@[simp] theorem advance_dbt : s.advance.dbt = s.dbt := by unfold advance; split <;> rfl
@[simp] theorem advance_color : s.advance.color = s.color := by unfold advance; split <;> rfl
@[simp] theorem advance_phase : s.advance.phase = s.phase := by unfold advance; split <;> rfl
@[simp] theorem advance_k : s.advance.k = s.k := by unfold advance; split <;> rfl
@[simp] theorem advance_fault : s.advance.fault = s.fault := by unfold advance; split <;> rfl
@[simp] theorem advance_params : s.advance.params = s.params := by unfold advance; split <;> rfl
@[simp] theorem advance_pixOut : s.advance.pixOut = s.pixOut := by unfold advance; split <;> rfl

theorem advance_cons {i : PortIn} {rest : List PortIn} (h : s.inputs = i :: rest) :
    s.advance = { s with inputs := rest } := by
  unfold advance; rw [h]

theorem advance_nil (h : s.inputs = []) : s.advance = { s with tick := s.tick + 1 } := by
  unfold advance; rw [h]

theorem portIn_cons {i : PortIn} {rest : List PortIn} (h : s.inputs = i :: rest) : s.portIn = i := by
  unfold portIn; rw [h]

theorem portIn_nil (h : s.inputs = []) : s.portIn = Config.freeInput s.tick := by
  unfold portIn; rw [h]

/-! Placing an event for the next step. -/

@[simp] theorem withFetchWord_sel (nbits w : Nat) : (s.withFetchWord nbits w).sel = s.sel := rfl
@[simp] theorem withFetchWord_dbt (nbits w : Nat) : (s.withFetchWord nbits w).dbt = s.dbt := rfl
@[simp] theorem withFetchWord_color (nbits w : Nat) : (s.withFetchWord nbits w).color = s.color := rfl
@[simp] theorem withFetchWord_phase (nbits w : Nat) : (s.withFetchWord nbits w).phase = .idle := rfl
@[simp] theorem withFetchWord_k (nbits w : Nat) : (s.withFetchWord nbits w).k = s.k := rfl
@[simp] theorem withFetchWord_fault (nbits w : Nat) : (s.withFetchWord nbits w).fault = none := rfl
@[simp] theorem withFetchWord_params (nbits w : Nat) : (s.withFetchWord nbits w).params = s.params := rfl
@[simp] theorem withFetchWord_inputs (nbits w : Nat) : (s.withFetchWord nbits w).inputs = PortIn.offering (w % 2 ^ nbits) :: s.inputs := rfl
@[simp] theorem withFetchWord_tick (nbits w : Nat) : (s.withFetchWord nbits w).tick = s.tick := rfl
@[simp] theorem withFetchWord_pixOut (nbits w : Nat) : (s.withFetchWord nbits w).pixOut = s.pixOut := rfl

/-! Reset. -/

@[simp] theorem resetWith_sel (p : Params) : (resetWith p).sel = 0 := rfl
@[simp] theorem resetWith_dbt (p : Params) : (resetWith p).dbt = 0 := rfl
@[simp] theorem resetWith_color (p : Params) : (resetWith p).color = p.color := rfl
@[simp] theorem resetWith_phase (p : Params) : (resetWith p).phase = if p.bootRender then .render else .idle := rfl
@[simp] theorem resetWith_k (p : Params) : (resetWith p).k = 0 := rfl
@[simp] theorem resetWith_fault (p : Params) : (resetWith p).fault = none := rfl
@[simp] theorem resetWith_params (p : Params) : (resetWith p).params = p := rfl
@[simp] theorem resetWith_inputs (p : Params) : (resetWith p).inputs = [] := rfl
@[simp] theorem resetWith_tick (p : Params) : (resetWith p).tick = 0 := rfl
@[simp] theorem resetWith_pixOut (p : Params) : (resetWith p).pixOut = [] := rfl

/-! Taking an event. -/

@[simp] theorem acceptEvent_decrement_sel (now : Nat) : (s.acceptEvent decrement now).sel = selDecrement s.sel := rfl
@[simp] theorem acceptEvent_decrement_dbt (now : Nat) : (s.acceptEvent decrement now).dbt = now % 2 ^ s.params.timeW := rfl
@[simp] theorem acceptEvent_decrement_color (now : Nat) : (s.acceptEvent decrement now).color = s.color := rfl
@[simp] theorem acceptEvent_decrement_phase (now : Nat) : (s.acceptEvent decrement now).phase = .render := rfl
@[simp] theorem acceptEvent_decrement_k (now : Nat) : (s.acceptEvent decrement now).k = 0 := rfl
@[simp] theorem acceptEvent_decrement_fault (now : Nat) : (s.acceptEvent decrement now).fault = s.fault := rfl
@[simp] theorem acceptEvent_decrement_params (now : Nat) : (s.acceptEvent decrement now).params = s.params := rfl
@[simp] theorem acceptEvent_decrement_inputs (now : Nat) : (s.acceptEvent decrement now).inputs = s.inputs := rfl
@[simp] theorem acceptEvent_decrement_tick (now : Nat) : (s.acceptEvent decrement now).tick = s.tick := rfl
@[simp] theorem acceptEvent_decrement_pixOut (now : Nat) : (s.acceptEvent decrement now).pixOut = s.pixOut := rfl
@[simp] theorem acceptEvent_increment_sel (now : Nat) : (s.acceptEvent increment now).sel = selIncrement s.sel := rfl
@[simp] theorem acceptEvent_increment_dbt (now : Nat) : (s.acceptEvent increment now).dbt = now % 2 ^ s.params.timeW := rfl
@[simp] theorem acceptEvent_increment_color (now : Nat) : (s.acceptEvent increment now).color = s.color := rfl
@[simp] theorem acceptEvent_increment_phase (now : Nat) : (s.acceptEvent increment now).phase = .render := rfl
@[simp] theorem acceptEvent_increment_k (now : Nat) : (s.acceptEvent increment now).k = 0 := rfl
@[simp] theorem acceptEvent_increment_fault (now : Nat) : (s.acceptEvent increment now).fault = s.fault := rfl
@[simp] theorem acceptEvent_increment_params (now : Nat) : (s.acceptEvent increment now).params = s.params := rfl
@[simp] theorem acceptEvent_increment_inputs (now : Nat) : (s.acceptEvent increment now).inputs = s.inputs := rfl
@[simp] theorem acceptEvent_increment_tick (now : Nat) : (s.acceptEvent increment now).tick = s.tick := rfl
@[simp] theorem acceptEvent_increment_pixOut (now : Nat) : (s.acceptEvent increment now).pixOut = s.pixOut := rfl

end Sys2Proof.Machine.State
end

