-- ==== Sys2Proof/Laws/Ops.lean ====
section
/-! SUPPORT. One lemma for each shared operation that says everything it can do; later proofs cite these instead of unfolding. -/

namespace Sys2Proof.Machine

/-! ## Output ports and the gate -/

theorem evReady_iff (s : State) : s.evReady = true ↔ s.phase = .idle ∧ s.fault = none := by
  simp [State.evReady]

theorem pixValid_iff (s : State) : s.pixValid = true ↔ s.phase = .render ∧ s.fault = none := by
  simp [State.pixValid]

@[simp] theorem evReady_advance (s : State) : s.advance.evReady = s.evReady := by
  simp [State.evReady]

@[simp] theorem slotWord_advance (s : State) : s.advance.slotWord = s.slotWord := by
  simp [State.slotWord]

theorem gate_iff (w : Nat) (now dbt : Nat) : gate w now dbt = true ↔ 250000 < timeDelta w now dbt := by
  unfold gate debounceUs; exact decide_eq_true_iff

/-- With times in range and in order, the difference is the elapsed time at every width (R70 corner (c)). -/
theorem timeDelta_of_le {w : Nat} {now dbt : Nat} (h : dbt ≤ now) (hw : now < 2 ^ w) : timeDelta w now dbt = now - dbt := by
  unfold timeDelta
  have hlt : (now : Int) - dbt < ((2 ^ w : Nat) : Int) := by omega
  rw [Int.emod_eq_of_lt (by omega) hlt]
  omega

/-- Only the `TIME_W` low bits of the sample count. -/
theorem timeDelta_mod (w : Nat) (now dbt : Nat) : timeDelta w (now % 2 ^ w) dbt = timeDelta w now dbt := by
  unfold timeDelta
  rw [Int.natCast_mod, Int.emod_sub_emod]

/-! ## Index corrector and frame table -/

theorem corr_ok {k : Index} (h : k.toNat < 25) : ∃ c, corr k = .ok c ∧ c.toNat < 25 := by
  unfold corr
  rw [if_neg (by omega)]
  split
  · split
    · exact ⟨_, rfl, by simp; omega⟩
    · exact ⟨_, rfl, by simp; omega⟩
  · exact ⟨_, rfl, by simp; omega⟩

theorem corr_error {k : Index} (h : 25 ≤ k.toNat) : corr k = .error (.indexOutOfRange k) := by
  unfold corr; rw [if_pos h]

theorem glyphRead_ok (p : Params) {f : Sel} {c : Index} (hf : f.toNat < 10) (hc : c.toNat < 25) :
    glyphRead p f c = .ok ((glyphWord p f).getLsbD c.toNat) := by
  unfold glyphRead frameCount cells; rw [if_neg (by omega), if_neg (by omega)]

theorem glyphRead_frame_error (p : Params) {f : Sel} (c : Index) (hf : 10 ≤ f.toNat) :
    glyphRead p f c = .error (.frameOutOfRange f) := by
  unfold glyphRead frameCount; rw [if_pos hf]

theorem glyphRead_index_error (p : Params) {f : Sel} {c : Index} (hf : f.toNat < 10) (hc : 25 ≤ c.toNat) :
    glyphRead p f c = .error (.indexOutOfRange c) := by
  unfold glyphRead frameCount cells; rw [if_neg (by omega), if_pos hc]

/-! ## Renderer -/

@[simp] theorem pack_black (p : Params) : pack p Color.black = 0 := by simp [pack]

/-- On legal operands a slot has a word, decided by one cell (R63). -/
theorem word_ok (p : Params) (color : Color) {sel : Sel} {k : Index} (hs : sel.toNat < 10) (hk : k.toNat < 25) :
    ∃ c, corr k = .ok c ∧ c.toNat < 25 ∧
      word p color sel k = .ok (if (glyphWord p sel).getLsbD c.toNat then pack p color else offWord) := by
  obtain ⟨c, hc, hlt⟩ := corr_ok hk
  refine ⟨c, hc, hlt, ?_⟩
  unfold word
  rw [hc]
  simp only [glyphRead_ok p hs hlt]
  cases (glyphWord p sel).getLsbD c.toNat <;> rfl

theorem word_frame_error (p : Params) (color : Color) {sel : Sel} {k : Index} (hs : 10 ≤ sel.toNat) (hk : k.toNat < 25) :
    word p color sel k = .error (.frameOutOfRange sel) := by
  obtain ⟨c, hc, -⟩ := corr_ok hk
  unfold word
  rw [hc]
  simp only [glyphRead_frame_error p c hs]

theorem word_index_error (p : Params) (color : Color) (sel : Sel) {k : Index} (hk : 25 ≤ k.toNat) :
    word p color sel k = .error (.indexOutOfRange k) := by
  unfold word; rw [corr_error hk]

/-- Everything the slot step can do (R65). -/
theorem slotStep_cases (ready : Bool) (s : State) :
    (ready = false ∧ slotStep ready s = s) ∨
    (ready = true ∧ ∃ w, s.slotWord = .ok w ∧ s.k = 24 ∧ slotStep ready s = (s.pixWrite w).completeRender) ∨
    (ready = true ∧ ∃ w, s.slotWord = .ok w ∧ s.k ≠ 24 ∧ slotStep ready s = (s.pixWrite w).setK (s.k + 1)) ∨
    (ready = true ∧ ∃ r, s.slotWord = .error r ∧ slotStep ready s = s.raiseFault r) := by
  unfold slotStep
  cases ready with
  | false => exact .inl ⟨rfl, rfl⟩
  | true =>
    cases hw : s.slotWord with
    | error r => exact .inr (.inr (.inr ⟨rfl, r, rfl, rfl⟩))
    | ok w =>
      by_cases hk : s.k = 24
      · exact .inr (.inl ⟨rfl, w, rfl, hk, if_pos hk⟩)
      · exact .inr (.inr (.inl ⟨rfl, w, rfl, hk, if_neg hk⟩))

/-! ## Selection -/

theorem selIncrement_lt (v : Sel) : (selIncrement v).toNat < 10 := by
  simp [selIncrement, frameCount]; omega

theorem selDecrement_lt (v : Sel) : (selDecrement v).toNat < 10 := by
  unfold selDecrement frameCount
  split
  · decide
  · omega

/-- Everything the event step can do (R69): accept, drop, or meet a closed port. -/
theorem eventStep_cases (transition : State → State) (now : Nat) (s : State) :
    (s.evReady = true ∧ gate s.params.timeW now s.dbt = true ∧ eventStep transition now s = s.acceptEvent transition now) ∨
    (s.evReady = true ∧ gate s.params.timeW now s.dbt = false ∧ eventStep transition now s = s) ∨
    (s.evReady = false ∧ eventStep transition now s = s) := by
  unfold eventStep
  cases s.evReady <;> cases gate s.params.timeW now s.dbt <;> simp

/-- The transition an event dispatches (R69). -/
def transitionOf : Instr → State → State
  | .evA _ => State.decrement
  | .evB _ => State.increment

/-- The meaning of an event is the event step with its own transition. -/
theorem exec_eq (i : Instr) (s : State) : exec i s = .next (eventStep (transitionOf i) i.now s) := by
  cases i <;> rfl

end Sys2Proof.Machine
end

