-- ==== Sys2Proof/Laws/PerInstr.lean ====
section
/-! SUPPORT. Families of facts with one lemma for each constructor of Instr. -/

namespace Sys2Proof.Laws.RecordFields

/-- The record of an event holds `now` above its pin bit (R40), and a well-formed event's record has 1 + `TIME_W` bits. -/
def Statement (i : Instr) : Prop :=
  encode i / 2 = i.now ∧ ∀ w, i.wellFormed w = true → encode i < 2 ^ (w + 1)

theorem evA (now : Nat) : Statement (.evA now) := by
  refine ⟨by simp [encode, Instr.now], fun w h => ?_⟩
  have h' : now < 2 ^ w := by simpa [Instr.wellFormed] using h
  rw [pow_succ]; exact Nat.mul_lt_mul_of_pos_right h' (by decide)

theorem evB (now : Nat) : Statement (.evB now) := by
  refine ⟨by simp only [encode, Instr.now]; omega, fun w h => ?_⟩
  have h' : now < 2 ^ w := by simpa [Instr.wellFormed] using h
  rw [pow_succ]; simp only [encode]; omega

end Sys2Proof.Laws.RecordFields
end

