-- ==== Sys2Proof/Laws/Step.lean ====
section
/-! SUPPORT. What one step can do, said once. -/

namespace Sys2Proof

/-- The record on the port's wires fits its width, whatever number drives it. -/
theorem record_lt (w : Nat) (p : PortIn) : p.record w < 2 ^ (w + 1) := by
  have h1 : p.evNow % 2 ^ w < 2 ^ w := Nat.mod_lt _ (by positivity)
  have h2 : p.evPin.toNat < 2 := p.evPin.isLt
  unfold PortIn.record
  rw [pow_succ]
  omega

/-- Every record of the right width decodes (R41, R48). -/
theorem decode_ok {w record : Nat} (h : record < 2 ^ (w + 1)) :
    decode w record = .ok (if record % 2 = 0 then .evA (record / 2) else .evB (record / 2)) := by
  unfold decode
  rw [if_pos h]
  split <;> rfl

/-- The two halves of the record. -/
theorem record_halves (w : Nat) (p : PortIn) :
    p.record w % 2 = p.evPin.toNat ∧ p.record w / 2 = p.evNow % 2 ^ w := by
  have h : p.evPin.toNat < 2 := p.evPin.isLt
  unfold PortIn.record
  omega

namespace Machine

/-- The event port always carries an event, and its `now` is in range. -/
theorem evTake_ok (w : Nat) (p : PortIn) : ∃ i, evTake w p = .ok i ∧ i.now = p.evNow % 2 ^ w := by
  refine ⟨_, decode_ok (record_lt w p), ?_⟩
  split <;> exact (record_halves w p).2

/-- Everything the choice of a step can be, with the condition of each. -/
theorem action_cases (s : State) :
    (s.portIn.rst = true ∧ action s = .reset) ∨
    (s.portIn.rst = false ∧ s.evReady = true ∧ s.portIn.evValid = true ∧
      ∃ i, evTake s.params.timeW s.portIn = .ok i ∧ i.now = s.portIn.evNow % 2 ^ s.params.timeW ∧ action s = .event i) ∨
    (s.portIn.rst = false ∧ s.evReady = true ∧ s.portIn.evValid = false ∧ action s = .wait) ∨
    (s.portIn.rst = false ∧ s.pixValid = true ∧ action s = .slot s.portIn.pixReady) ∨
    (s.portIn.rst = false ∧ s.evReady = false ∧ s.pixValid = false ∧ action s = .wait) := by
  obtain ⟨i, hi, hn⟩ := evTake_ok s.params.timeW s.portIn
  have hx : s.evReady = true → s.pixValid = true → False := by
    rw [evReady_iff, pixValid_iff]; rintro ⟨h, -⟩ ⟨h', -⟩; simp [h] at h'
  unfold action
  rw [hi]
  cases hr : s.portIn.rst <;> cases he : s.evReady <;> cases hv : s.portIn.evValid <;> cases hp : s.pixValid <;> simp_all

/-- Everything a step can do: reset, event, slot step, or wait. It always answers a next state. -/
theorem step_cases (s : State) :
    (s.portIn.rst = true ∧ action s = .reset ∧ step s = .next s.advance.resetRegisters) ∨
    (s.portIn.rst = false ∧ s.evReady = true ∧ s.portIn.evValid = true ∧
      ∃ i, evTake s.params.timeW s.portIn = .ok i ∧ i.now = s.portIn.evNow % 2 ^ s.params.timeW ∧ action s = .event i ∧
        step s = .next (eventStep (transitionOf i) i.now s.advance)) ∨
    (s.portIn.rst = false ∧ s.pixValid = true ∧ action s = .slot s.portIn.pixReady ∧
      step s = .next (slotStep s.portIn.pixReady s.advance)) ∨
    (s.portIn.rst = false ∧ (s.evReady = true → s.portIn.evValid = false) ∧ s.pixValid = false ∧ action s = .wait ∧
      step s = .next s.advance) := by
  have hx : s.evReady = true → s.pixValid = false := by
    rw [evReady_iff]; rintro ⟨h, -⟩; simp [State.pixValid, h]
  unfold step
  rcases action_cases s with ⟨hr, ha⟩ | ⟨hr, he, hv, i, hi, hn, ha⟩ | ⟨hr, he, hv, ha⟩ | ⟨hr, hp, ha⟩ | ⟨hr, he, hp, ha⟩
  · exact .inl ⟨hr, ha, by rw [ha]⟩
  · exact .inr (.inl ⟨hr, he, hv, i, hi, hn, ha, by rw [ha]; exact exec_eq i _⟩)
  · exact .inr (.inr (.inr ⟨hr, fun _ => hv, hx he, ha, by rw [ha]⟩))
  · exact .inr (.inr (.inl ⟨hr, hp, ha, by rw [ha]⟩))
  · exact .inr (.inr (.inr ⟨hr, by simp [he], hp, ha, by rw [ha]⟩))

/-- A step always answers a next state. -/
theorem step_next (s : State) : ∃ t, step s = .next t := by
  rcases step_cases s with ⟨_, _, h⟩ | ⟨_, _, _, _, _, _, _, h⟩ | ⟨_, _, _, h⟩ | ⟨_, _, _, _, h⟩ <;> exact ⟨_, h⟩

/-! ## Runs -/

@[simp] theorem run_zero (s : State) : run 0 s = .next s := rfl

theorem run_succ {n : Nat} {s t : State} (h : step s = .next t) : run (n + 1) s = run n t := by
  have h' : core.step s = .next t := h
  simp only [run, Host.Core.run, h']; rfl

theorem run_add {m n : Nat} {s t : State} (h : run m s = .next t) : run (m + n) s = run n t := by
  induction m generalizing s with
  | zero => cases h; rw [Nat.zero_add]
  | succ m ih =>
    obtain ⟨u, hu⟩ := step_next s
    rw [run_succ hu] at h
    rw [show m + 1 + n = m + n + 1 by omega, run_succ hu]
    exact ih h

/-- The first sample of a trace, and the rest from the next state. -/
theorem trace_succ {α : Type} (f : State → Option α) {n : Nat} {s t : State} (h : step s = .next t) :
    trace f (n + 1) s = (f s).toList ++ trace f n t := by
  rw [trace, h]

end Machine

end Sys2Proof
end

