-- ==== Sys2Proof/Tests/Slice0.lean ====
section
/-! SUPPORT. Small tests, each about one step or one operation, with expected results from 95_test_vectors.md and the corner
cases of the rules; and for each statement with hypotheses a witness that meets them, clause by clause. -/

namespace Sys2Proof.Tests

open Sys2Proof.Machine

/-! ## A small block to test on -/

/-- A legal choice of the open parameters. The glyphs are the hypothetical ones of 95_test_vectors.md 2.3, not the device's. -/
def params0 : Params :=
  { timeW := 64, color := ⟨1, 2, 3⟩, pack := [(⟨1, 2, 3⟩, 0xABCDEF01)]
    glyphs := #v[0x0000020, 0x0108421, 0x1041041, 0x0080000, 0x0001000, 0x000001F, 0x00003E0, 0x1FFFFFF, 0x0000001]
    bootRender := false }

/-- Idle, with the given selection, DBT and input. -/
def idleAt (sel : Sel) (dbt : Nat) (inputs : List PortIn := []) : State :=
  { State.resetWith params0 with sel := sel, dbt := dbt, inputs := inputs }

/-- In a render, at the given frame and slot. -/
def renderAt (sel : Sel) (k : Index) (inputs : List PortIn := []) : State :=
  { State.resetWith params0 with sel := sel, k := k, phase := .render, inputs := inputs }

/-- Faulted in a render. -/
def faultedAt (inputs : List PortIn := []) : State :=
  { renderAt 12 0 inputs with fault := some (.frameOutOfRange 12) }

/-- What `f` reads in the next state, if there is one. -/
def after {α : Type} (o : Host.Outcome State Fault Refusal) (f : State → α) : Option α :=
  match o with
  | .next t => some (f t)
  | _ => none

/-- The words of all 25 slots as a string of 0 (off) and 1 (on), and 2 for a fault. -/
def slotString (sel : Sel) : List Nat :=
  (List.range 25).map fun k =>
    match word params0 params0.color sel (BitVec.ofNat 5 k) with
    | .ok w => if w = 0xABCDEF01 then 1 else if w = 0 then 0 else 2
    | .error _ => 2

/-! ## Well-formedness: each check refuses an ill-formed term -/

theorem test_wf_evA : (Instr.evA (2 ^ 64 - 1)).wellFormed 64 = true ∧ (Instr.evA (2 ^ 64)).wellFormed 64 = false := by decide
theorem test_wf_evB : (Instr.evB (2 ^ 18 - 1)).wellFormed 18 = true ∧ (Instr.evB (2 ^ 18)).wellFormed 18 = false := by decide
theorem test_params_legal : params0.legal = true ∧ ({ params0 with timeW := 17 } : Params).legal = false := by decide

/-! ## Decoding: records written out from R40 and 95_test_vectors.md -/

/-- P1 `A 810001`: now 0xC5C11 = 0b11000101110000010001, pin 0. -/
theorem test_decode_evA : decode 64 0b11000101110000010001_0 = .ok (.evA 0xC5C11) ∧ decode 64 0x18B822 = .ok (.evA 810001) := by
  decide
/-- P1 `B 300000`: now 0x493E0 = 0b1001001001111100000, pin 1. -/
theorem test_decode_evB : decode 64 0b1001001001111100000_1 = .ok (.evB 300000) ∧ decode 64 0x927C1 = .ok (.evB 300000) := by
  decide
theorem test_decode_rejects : decode 64 (2 ^ 65) = .error .recordTooWide ∧ decode 18 (2 ^ 19 + 1) = .error .recordTooWide := by decide
theorem test_encode : encode (.evB 810002) = 0x18B825 ∧ encode (.evA 810002) = 0x18B824 := by decide
theorem test_decodeTableWord : decodeTableWord 8 0 = some (.evA 0) ∧ decodeTableWord 8 1 = some (.evB 0) := by decide
/-- A table word is placed so that the next step takes exactly its event, also from reset. -/
theorem test_withFetchWord_reset : action (State.reset.withFetchWord 8 1) = .event (.evB 0) ∧
    action (State.reset.withFetchWord 8 0) = .event (.evA 0) := by decide
theorem test_step_withFetchWord_evA : step (State.reset.withFetchWord 24 0x18B822) =
    exec (.evA 810001) (State.reset.withFetchWord 24 0x18B822).advance := rfl
theorem test_step_withFetchWord_evB : step ((renderAt 3 7).withFetchWord 24 0x0927C1) =
    exec (.evB 300000) ((renderAt 3 7).withFetchWord 24 0x0927C1).advance := rfl

/-! ## Frame table, corrector, renderer -/

/-- FT2. -/
theorem test_glyph0 : glyph0.toNat = 0x0E5294E := by decide
/-- FT3, FT4, FT5. -/
theorem test_glyphRead_faults : glyphRead params0 10 0 = .error (.frameOutOfRange 10) ∧
    glyphRead params0 0 25 = .error (.indexOutOfRange 25) ∧ glyphRead params0 15 3 = .error (.frameOutOfRange 15) := by decide
/-- W1 to W5. -/
theorem test_corr_worked : corr 5 = .ok 15 ∧ corr 15 = .ok 5 ∧ corr 0 = .ok 24 ∧ corr 24 = .ok 0 ∧ corr 12 = .ok 12 := by decide
/-- IC10. -/
theorem test_corr_faults : corr 25 = .error (.indexOutOfRange 25) ∧ corr 31 = .error (.indexOutOfRange 31) := by decide
/-- RD2, RD4, RD7, RD8. -/
theorem test_render_single_cells :
    slotString 1 = [0,0,0,0,0, 0,0,0,0,0, 0,0,0,0,0, 1,0,0,0,0, 0,0,0,0,0] ∧
    slotString 4 = [0,0,0,0,0, 0,0,0,0,1, 0,0,0,0,0, 0,0,0,0,0, 0,0,0,0,0] ∧
    slotString 2 = [0,0,0,0,1, 1,0,0,0,0, 0,0,0,0,1, 1,0,0,0,0, 0,0,0,0,1] ∧
    slotString 3 = [1,0,0,0,0, 0,0,0,1,0, 0,0,1,0,0, 0,1,0,0,0, 0,0,0,0,1] := by decide
/-- RD3, RD5, RD6, RD9, RD1. -/
theorem test_render_rows :
    slotString 5 = [0,0,0,0,0, 0,0,0,0,0, 0,0,1,0,0, 0,0,0,0,0, 0,0,0,0,0] ∧
    slotString 6 = [0,0,0,0,0, 0,0,0,0,0, 0,0,0,0,0, 0,0,0,0,0, 1,1,1,1,1] ∧
    slotString 7 = [0,0,0,0,0, 0,0,0,0,0, 0,0,0,0,0, 1,1,1,1,1, 0,0,0,0,0] ∧
    slotString 8 = List.replicate 25 1 ∧
    slotString 9 = [0,0,0,0,0, 0,0,0,0,0, 0,0,0,0,0, 0,0,0,0,0, 0,0,0,0,1] := by decide
/-- RD11. -/
theorem test_render_frame0 : slotString 0 = [0,1,1,1,0, 0,1,0,1,0, 0,1,0,1,0, 0,1,0,1,0, 0,1,1,1,0] := by decide
/-- RD13: a stall, then a transfer. -/
theorem test_slot_stall : after (step (renderAt 2 3 [sampleQuiet])) id = some (renderAt 2 3) ∧
    after (step (renderAt 2 3 [sampleReady])) (fun t => (t.k, t.pixOut)) = some (4, [0]) := by decide
/-- RD14: the last slot. -/
theorem test_slot_last : after (step (renderAt 2 24 [sampleReady])) (fun t => (t.phase, t.k, t.evReady, t.pixOut)) =
    some (.idle, 24, true, [0xABCDEF01]) := by decide
/-- RS4: the first slot of an illegal frame faults and delivers nothing. -/
theorem test_slot_fault : after (step (renderAt 12 0 [sampleReady])) id = some faultedAt ∧
    faultedAt.evReady = false ∧ faultedAt.pixValid = false := by decide

/-! ## Selection and gate -/

/-- FS9 and W9: accept order and increment wrap. -/
theorem test_evB : after (exec (.evB 400000) (idleAt 2 0)) (fun t => (t.dbt, t.sel, t.phase, t.k)) = some (400000, 3, .render, 0) ∧
    after (exec (.evB 600000) (idleAt 9 0)) State.selOut = some 0 := by decide
/-- W10 and FS8: decrement wrap, and the shared window. -/
theorem test_evA : after (exec (.evA 300000) (idleAt 0 0)) State.selOut = some 9 ∧
    after (exec (.evA 300000) (idleAt 4 0)) (fun t => (t.sel, t.dbt)) = some (3, 300000) ∧
    after (exec (.evB 549999) (idleAt 3 300000)) id = some (idleAt 3 300000) := by decide
/-- FS6 and FS7: the unreachable selections. -/
theorem test_unreachable_sel : [10, 11, 12, 13, 14, 15].map selIncrement = [1, 2, 3, 4, 5, 6] ∧
    [10, 11, 12, 13, 14, 15].map selDecrement = List.replicate 6 9 := by decide
/-- GT1 to GT6 and GT9. -/
theorem test_gate_64 : gate 64 250000 0 = false ∧ gate 64 250001 0 = true ∧ gate 64 0 0 = false ∧ gate 64 310000 300000 = false ∧
    gate 64 550000 300000 = false ∧ gate 64 550001 300000 = true ∧ gate 64 5 10 = true := by decide
/-- GT7 and GT8, wrapped. -/
theorem test_gate_32 : gate 32 0x0003D190 0xFFFFFF00 = true ∧ gate 32 0x0003D08F 0xFFFFFFFF = false := by decide

/-! ## Reset and environment -/

/-- RS1 from a fault, RS2. -/
theorem test_reset : after (step (faultedAt [sampleReset])) id = some (State.resetWith params0) ∧
    (State.resetWith { params0 with bootRender := true }).phase.toBit = 1 ∧ (State.resetWith params0).phase.toBit = 0 := by decide
/-- A reset in the same step as an offered event takes precedence (R83). -/
theorem test_reset_precedence :
    after (step (idleAt 4 0 [{ sampleEvent (.evB 300000) with rst := true }])) id = some (State.resetWith params0) := by decide
/-- R50: the script's text. -/
theorem test_script : parseLine ['B', ' ', '3', '0', '0'] = some (.b 300) ∧ parseLine ['D', 'E', 'C', ' ', '7'] = some (.a 7) ∧
    parseLine ['R', 'E', 'S', 'E', 'T'] = some .reset ∧ parseLine ['A', ' '] = none := by decide
/-- P4's lines keep MONO, since `RESET` starts it anew. -/
theorem test_script_monotone : scriptMonotone 0 [.b 300000, .reset, .b 100000, .a 400000] = true ∧
    scriptMonotone 0 [.b 300000, .a 200000] = false := by decide

/-! ## Witnesses: states and operands that meet the hypotheses of the statements -/

theorem witness_ResetStepFromAnyState : (faultedAt [sampleReset]).portIn.rst = true ∧
    (renderAt 9 0 (List.replicate 24 sampleReady ++ sampleReset :: [])).k = 0 ∧ (9 : Sel).toNat < 10 ∧
    noReset (List.replicate 24 sampleReady) = true ∧ readyCount (List.replicate 24 sampleReady) < 25 ∧ sampleReset.rst = true := by
  decide
theorem witness_PortAfterReset : params0.bootRender = false ∧ ({ params0 with bootRender := true } : Params).bootRender = true ∧
    readyCount (sampleQuiet :: List.replicate 24 sampleReady) < 25 ∧ readyCount (sampleQuiet :: List.replicate 25 sampleReady) = 25 ∧
    endsReady (sampleQuiet :: List.replicate 25 sampleReady) = true ∧
    noReset (sampleQuiet :: List.replicate 25 sampleReady) = true := by decide
/-- An idle block that is offered `B 300000`. -/
def offered : State := idleAt 0 0 [sampleEvent (.evB 300000)]
theorem witness_StepRunsOfferedEvent : offered.portIn.rst = false ∧ offered.evReady = true ∧ offered.portIn.evValid = true ∧
    decode offered.params.timeW (offered.portIn.record offered.params.timeW) = .ok (.evB 300000) := by decide
theorem witness_EventPortTransfers : (idleAt 0 0 [sampleReset]).portIn.rst = true ∧ (renderAt 0 0).evReady = false ∧
    (idleAt 0 0 [sampleQuiet]).portIn.evValid = false := by decide
theorem inv_renderAt : (renderAt 9 24 [sampleReady]).Inv := ⟨by decide, by decide, rfl, by decide, rfl⟩
theorem witness_OutputPorts : (idleAt 0 0).pixValid = false ∧ (renderAt 9 24 [sampleReady]).Inv ∧
    (renderAt 9 24 [sampleReady]).pixValid = true := ⟨by decide, inv_renderAt, by decide⟩
theorem witness_StepUsesOneSample : step (renderAt 2 3 [sampleQuiet]) = .next (renderAt 2 3) ∧ ∃ t, step (idleAt 0 0) = .next t :=
  ⟨rfl, step_next _⟩
theorem witness_IdleWaitKeepsRegisters : (idleAt 3 5 [sampleQuiet, sampleReady]).evReady = true ∧
    ∀ i ∈ [sampleQuiet, sampleReady], i.rst = false ∧ i.evValid = false := by decide
theorem witness_RegistersWrittenByTheirRules :
    after (step offered) (fun t => decide (t.sel ≠ offered.sel ∧ t.dbt ≠ offered.dbt ∧ t.phase ≠ offered.phase)) = some true ∧
    after (step { faultedAt [sampleReset] with color := ⟨0, 0, 9⟩ }) (fun t => decide (t.color ≠ ⟨0, 0, 9⟩)) = some true ∧
    after (step (renderAt 0 3 [sampleReady])) (fun t => decide (t.k ≠ 3)) = some true ∧
    after (step (renderAt 12 3 [sampleReady])) (fun t => decide (t.fault ≠ none)) = some true := by decide
theorem witness_GlyphsNeverChange : run 1 (renderAt 2 3 [sampleQuiet]) = .next (renderAt 2 3) := rfl
theorem witness_StepKeepsInv : (renderAt 9 24 [sampleReady]).Inv ∧ ∃ t, step (renderAt 9 24 [sampleReady]) = .next t :=
  ⟨inv_renderAt, step_next _⟩
theorem witness_GlyphReadValue : (24 : Index).toNat < 25 ∧ (9 : Sel).toNat - 1 < 9 ∧ 1 ≤ (9 : Sel).toNat ∧ 10 ≤ (10 : Sel).toNat ∧
    (9 : Sel).toNat < 10 ∧ 25 ≤ (25 : Index).toNat := by decide
theorem witness_CorrIsInvolution : (24 : Index).toNat < 25 ∧ corr 12 = .ok 12 := by decide
theorem witness_SlotWordValue : (9 : Sel).toNat < 10 ∧ (24 : Index).toNat < 25 ∧ Color.black = ⟨0, 0, 0⟩ ∧
    25 ≤ (25 : Index).toNat ∧ 10 ≤ (10 : Sel).toNat := by decide
theorem witness_DeliveredWordIsOnOrOff : ∃ t, step (renderAt 2 24 [sampleReady]) = .next t := step_next _
theorem witness_SlotStepDelivers : (renderAt 9 24 [sampleQuiet]).portIn.rst = false ∧ (renderAt 9 24).phase = .render ∧
    (renderAt 9 24).fault = none ∧ (renderAt 9 24 [sampleQuiet]).portIn.pixReady = false ∧
    (renderAt 9 24 [sampleReady]).portIn.pixReady = true ∧ (renderAt 9 23 [sampleReady]).k ≠ 24 := by decide
/-- A render with a wait before each word. -/
def slowConsumer : List PortIn := (List.replicate 25 [sampleQuiet, sampleReady]).flatten
theorem witness_RenderDeliversEverySlot : noReset slowConsumer = true ∧ readyCount slowConsumer = 25 - (renderAt 9 0 slowConsumer).k.toNat ∧
    endsReady slowConsumer = true ∧ (renderAt 9 0 slowConsumer).inputs = slowConsumer ++ [] ∧
    readyCount [sampleReady] = 25 - (renderAt 9 24 [sampleReady]).k.toNat ∧ endsReady [sampleReady] = true := by decide
theorem witness_FrameZeroRender : (renderAt 0 0 (List.replicate 25 sampleReady)).inputs = List.replicate 25 sampleReady ++ [] ∧
    corr 24 = .ok 0 := by decide
theorem witness_RenderHangsWithoutConsumer : noReset [sampleQuiet, sampleEvent (.evA 9)] = true ∧
    readyCount [sampleQuiet, sampleEvent (.evA 9)] = 0 := by decide
theorem witness_RenderIgnoresEventPort : (sampleEvent (.evA 9)).rst = sampleQuiet.rst ∧
    (sampleEvent (.evA 9)).pixReady = sampleQuiet.pixReady ∧ (renderAt 0 0).phase = .render := by decide
theorem witness_GateIsStrictModularTest : 300000 ≤ 550000 ∧ 550000 < 2 ^ 64 := by decide
theorem witness_accepted : (idleAt 9 0).phase = .idle ∧ (idleAt 9 0).fault = none ∧ 250001 < 2 ^ (idleAt 9 0).params.timeW ∧
    gate (idleAt 9 0).params.timeW 250001 (idleAt 9 0).dbt = true := by decide
theorem witness_EventInsideWindowIsDropped : gate (idleAt 0 0).params.timeW 250000 (idleAt 0 0).dbt = false ∧
    (idleAt 0 0 [sampleEvent (.evA 250000)]).transferred = some (.evA 250000) ∧
    (idleAt 0 0 [sampleEvent (.evA 250000)]).accepted = none := by decide
theorem witness_ClosedPortTakesNoEvent : (renderAt 0 0).phase = .render ∧ ({ idleAt 0 0 with fault := some (.indexOutOfRange 25) } : State).fault ≠ none := by
  decide
theorem witness_EventIsPrecise : exec (.evA 250000) (idleAt 0 0) = .next (idleAt 0 0) := rfl
/-- FS8 as a witness: (A, 300000) accepted, then B at the last dropped and at the first accepted time. -/
theorem witness_WindowIsShared : (idleAt 4 0).evReady = true ∧ gate 64 300000 0 = true ∧ 300000 ≤ 550000 ∧ 550000 < 2 ^ 64 ∧
    550000 - 300000 ≤ 250000 ∧ exec (.evA 300000) (idleAt 4 0) = .next { renderAt 3 0 with dbt := 300000 } ∧
    (idleAt 3 300000).dbt = ({ renderAt 3 0 with dbt := 300000 } : State).dbt ∧
    (idleAt 3 300000).params = ({ renderAt 3 0 with dbt := 300000 } : State).params :=
  ⟨by decide, by decide, by decide, by decide, by decide, rfl, rfl, rfl⟩
theorem witness_FirstEventEdge : params0.bootRender = false ∧ (Instr.evA 250000).now < 2 ^ params0.timeW ∧
    (Instr.evA 250000).now ≤ 250000 ∧ (Instr.evB 250001).now < 2 ^ params0.timeW ∧ 250000 < (Instr.evB 250001).now := by decide
theorem witness_EventHandledToCompletion : offered.accepted = some (.evB 300000) ∧
    (idleAt 0 0 (sampleEvent (.evB 300000) :: (slowConsumer ++ []))).accepted = some (.evB 300000) ∧ readyCount slowConsumer = 25 ∧
    readyCount (List.replicate 24 sampleReady) < 25 := by decide
/-- Two accepted events, a render apart. -/
def twoEvents : State := idleAt 0 0 (scriptInputs [.b 300000, .a 550001])
theorem witness_AcceptedEventsAreApart : resetFree 27 twoEvents ∧ monoDuty 27 twoEvents ∧
    trace State.accepted 27 twoEvents = [.evB 300000, .evA 550001] := by decide
theorem witness_DbtNeverDecreases : resetFree 1 offered ∧ monoDuty 1 offered ∧
    run 1 offered = .next { renderAt 1 0 with dbt := 300000 } := ⟨by decide, by decide, rfl⟩
theorem witness_FaultIsAbsorbing : (renderAt 0 25 [sampleReady]).portIn.pixReady = true ∧ 25 ≤ (renderAt 0 25).k.toNat ∧
    (renderAt 10 24 [sampleReady]).portIn.rst = false ∧ 10 ≤ (renderAt 10 24).sel.toNat ∧ (renderAt 10 24).k.toNat < 25 ∧
    faultedAt.fault ≠ none ∧ noReset [sampleEvent (.evB 9), sampleReady] = true := by decide
theorem witness_EdgeDuringRender : (idleAt 1 300000).evReady = true ∧ (idleAt 1 300000).dbt ≤ (Instr.evA 550001).now ∧
    (Instr.evA 550001).now < 2 ^ (idleAt 1 300000).params.timeW ∧ 250000 < (Instr.evA 550001).now - 300000 ∧
    (Instr.evA 550000).now - 300000 ≤ 250000 := by decide
theorem witness_SimultaneousEdges : (idleAt 9 0).evReady = true ∧ (9 : Sel).toNat < 10 ∧ 300000 ≤ 550000 ∧ 550000 < 2 ^ 64 ∧
    550000 - 300000 ≤ 250000 ∧ gate 64 300000 0 = true ∧
    (EdgeOrder.aFirst.serialise 300000 550000) = (.evA 300000, .evB 550000) := by decide
theorem witness_DecodeOfEncode : (Instr.evA (2 ^ 64 - 1)).wellFormed 64 = true ∧ (Instr.evB (2 ^ 64 - 1)).wellFormed 64 = true := by decide
theorem witness_EventMapIsComplete : 2 ^ 65 - 1 < 2 ^ (64 + 1) ∧ 2 ^ (64 + 1) ≤ 2 ^ 65 ∧ sampleQuiet.evValid = false ∧
    ({ sampleQuiet with evNow := 7 } : PortIn).evValid = false ∧ sampleQuiet.rst = ({ sampleQuiet with evNow := 7 } : PortIn).rst := by decide

end Sys2Proof.Tests
end

section
/-! PROOFS. The width the debounce gate needs (00_scope.md R7). -/

namespace Sys2Proof.Machine

/-- The `TIME_W`-bit difference fits in `TIME_W` bits (R8). -/
theorem timeDelta_lt (w now dbt : Nat) : timeDelta w now dbt < 2 ^ w := by
  have hpos : (0 : Int) < ((2 ^ w : Nat) : Int) := by exact_mod_cast Nat.two_pow_pos w
  exact (Int.toNat_lt (Int.emod_nonneg _ hpos.ne')).mpr (Int.emod_lt_of_pos _ hpos)

/-- The gate can pass iff the smallest difference that passes it, 250001, is a `TIME_W`-bit number. -/
theorem exists_gate_iff (w : Nat) : (∃ now dbt : Nat, gate w now dbt = true) ↔ 250001 < 2 ^ w := by
  simp only [gate_iff]
  constructor
  · rintro ⟨now, dbt, hpass⟩
    exact lt_of_le_of_lt hpass (timeDelta_lt w now dbt)
  · intro hfits
    have hdelta : timeDelta w 250001 0 = 250001 := timeDelta_of_le (Nat.zero_le _) hfits
    exact ⟨250001, 0, by omega⟩

/-- 250001 lies between `2 ^ 17` and `2 ^ 18`. -/
theorem threshold_lt_two_pow_iff (w : Nat) : 250001 < 2 ^ w ↔ 18 ≤ w := by
  constructor
  · intro hfits
    by_contra hnarrow
    have hle : 2 ^ w ≤ 2 ^ 17 := Nat.pow_le_pow_right (by decide) (by omega)
    omega
  · intro hwide
    have hle : 2 ^ 18 ≤ 2 ^ w := Nat.pow_le_pow_right (by decide) hwide
    omega

/-- Settles O30: the least passing difference, 250001, needs 18 bits, and at every such width `now = 250001`, `DBT = 0`
passes. -/
theorem gatePassesFromWidth18 : Obligations.GatePassesFromWidth18 := by
  intro w
  exact (exists_gate_iff w).trans (threshold_lt_two_pow_iff w)

end Sys2Proof.Machine
end

section
/-! PROOFS. What one step does to the registers (10_state.md R10, R11), said once: `step_effect` and its consequences. -/

namespace Sys2Proof.Machine

/-! ## The transferred and the accepted event -/

theorem action_eq_reset_iff (s : State) : action s = .reset ↔ s.portIn.rst = true := by
  rcases action_cases s with ⟨hr, ha⟩ | ⟨hr, _, _, _, _, _, ha⟩ | ⟨hr, _, _, ha⟩ | ⟨hr, _, ha⟩ | ⟨hr, _, _, ha⟩ <;> simp [hr, ha]

theorem transferred_eq_some_iff (s : State) (i : Instr) : s.transferred = some i ↔ action s = .event i := by
  unfold State.transferred
  cases action s <;> simp

theorem accepted_eq_some_iff (s : State) (i : Instr) :
    s.accepted = some i ↔ s.transferred = some i ∧ gate s.params.timeW i.now s.dbt = true := by
  simp [State.accepted, Option.filter_eq_some_iff]

theorem accepted_eq_none_of_transferred {s : State} (h : s.transferred = none) : s.accepted = none := by
  simp [State.accepted, h]

/-- The event on the port's wires: the pin selects the kind, and `now` is cut to its wires (R41). -/
theorem evTake_eq (w : Nat) (p : PortIn) :
    evTake w p = .ok (if p.evPin = 0 then .evA (p.evNow % 2 ^ w) else .evB (p.evNow % 2 ^ w)) := by
  obtain ⟨hpin, hnow⟩ := record_halves w p
  have hzero : p.evPin.toNat = 0 ↔ p.evPin = 0 := BitVec.toNat_inj (y := 0)
  simp only [evTake, decode_ok (record_lt w p), hpin, hnow, hzero]

/-! ## The effect of an accepted event on each register -/

section
variable (i : Instr) (now : Nat) (s : State)

theorem acceptEvent_transitionOf_sel_lt : (s.acceptEvent (transitionOf i) now).sel.toNat < 10 := by
  cases i
  · exact selDecrement_lt s.sel
  · exact selIncrement_lt s.sel

@[simp] theorem acceptEvent_transitionOf_dbt :
    (s.acceptEvent (transitionOf i) now).dbt = now % 2 ^ s.params.timeW := by cases i <;> rfl
@[simp] theorem acceptEvent_transitionOf_color : (s.acceptEvent (transitionOf i) now).color = s.color := by cases i <;> rfl
@[simp] theorem acceptEvent_transitionOf_k : (s.acceptEvent (transitionOf i) now).k = 0 := by cases i <;> rfl
@[simp] theorem acceptEvent_transitionOf_fault : (s.acceptEvent (transitionOf i) now).fault = s.fault := by cases i <;> rfl
@[simp] theorem acceptEvent_transitionOf_params : (s.acceptEvent (transitionOf i) now).params = s.params := by cases i <;> rfl

end

/-! ## The effect of a step -/

/-- What a step from `s` can lead to, one constructor for each rule that writes a register, with the rule's condition. -/
inductive StepEffect (s : State) : State → Prop
  /-- Reset (R95). -/
  | reset (hact : action s = .reset) : StepEffect s s.advance.resetRegisters
  /-- An accepted event (R71); its `now` is in range. -/
  | accept (i : Instr) (hacc : s.accepted = some i) (hnow : i.now < 2 ^ s.params.timeW) :
      StepEffect s (s.advance.acceptEvent (transitionOf i) i.now)
  /-- The transfer of slot 24 (R65, R86). -/
  | lastSlot (w : PixelWord) (hact : action s = .slot true) (hword : s.slotWord = .ok w) (hk : s.k = 24) :
      StepEffect s (s.advance.pixWrite w).completeRender
  /-- The transfer of another slot (R65). -/
  | nextSlot (w : PixelWord) (hact : action s = .slot true) (hword : s.slotWord = .ok w) (hk : s.k ≠ 24) :
      StepEffect s ((s.advance.pixWrite w).setK (s.k + 1))
  /-- A slot whose lookup faults (R80). -/
  | slotFault (r : Fault) (hact : action s = .slot true) (hword : s.slotWord = .error r) :
      StepEffect s (s.advance.raiseFault r)
  /-- A wait, a blocked slot (R65) or a dropped event (R72): no register is written. -/
  | keep (hacc : s.accepted = none) : StepEffect s s.advance

/-- A slot step writes what R65 and R80 say, and nothing while it blocks. -/
theorem slotStep_effect {s : State} {ready : Bool} (hact : action s = .slot ready) :
    StepEffect s (slotStep ready s.advance) := by
  have hnone : s.transferred = none := by simp [State.transferred, hact]
  rcases slotStep_cases ready s.advance with
    ⟨_, hs⟩ | ⟨rfl, w, hword, hk, hs⟩ | ⟨rfl, w, hword, hk, hs⟩ | ⟨rfl, r, hword, hs⟩ <;> rw [hs]
  · exact .keep (accepted_eq_none_of_transferred hnone)
  · exact .lastSlot w hact (by simpa using hword) (by simpa using hk)
  · simpa using StepEffect.nextSlot w hact (by simpa using hword) (by simpa using hk)
  · exact .slotFault r hact (by simpa using hword)

/-- A transferred event is accepted or dropped, as the gate decides. -/
theorem eventStep_effect {s : State} {i : Instr} (hact : action s = .event i) (hready : s.evReady = true)
    (hnow : i.now < 2 ^ s.params.timeW) : StepEffect s (eventStep (transitionOf i) i.now s.advance) := by
  have htrans : s.transferred = some i := (transferred_eq_some_iff s i).mpr hact
  rcases eventStep_cases (transitionOf i) i.now s.advance with ⟨_, hgate, hs⟩ | ⟨_, hgate, hs⟩ | ⟨hclosed, _⟩
  · rw [hs]
    exact .accept i ((accepted_eq_some_iff s i).mpr ⟨htrans, by simpa using hgate⟩) hnow
  · rw [hs]
    exact .keep (by simpa [State.accepted, htrans] using hgate)
  · simp [hready] at hclosed

/-- Every step has one of the effects of `StepEffect`. -/
theorem step_effect {s t : State} (h : step s = .next t) : StepEffect s t := by
  rcases step_cases s with ⟨_, hact, hs⟩ | ⟨_, hready, _, i, _, hnow, hact, hs⟩ | ⟨_, _, hact, hs⟩ | ⟨_, _, _, hact, hs⟩ <;>
    obtain rfl := Host.Outcome.next.inj (hs.symm.trans h)
  · exact .reset hact
  · exact eventStep_effect hact hready (hnow ▸ Nat.mod_lt _ (Nat.two_pow_pos _))
  · exact slotStep_effect hact
  · exact .keep (accepted_eq_none_of_transferred (by simp [State.transferred, hact]))

/-- DBT is written only by reset, and by an accepted event with that event's `now` (R13). -/
theorem step_dbt {s t : State} (h : step s = .next t) :
    action s = .reset ∨ (∃ i, s.accepted = some i ∧ t.dbt = i.now) ∨ t.dbt = s.dbt := by
  cases step_effect h with
  | reset hact => exact .inl hact
  | accept i hacc hnow => exact .inr (.inl ⟨i, hacc, by simpa using Nat.mod_eq_of_lt hnow⟩)
  | lastSlot | nextSlot | slotFault | keep => exact .inr (.inr (by simp))

end Sys2Proof.Machine
end

section
/-! PROOFS. The invariant (10_state.md R12 to R15, 60_exceptions.md R79), and the registers' writers (10_state.md R10, R11). -/

namespace Sys2Proof.Machine

theorem inv_resetWith (p : Params) (l : List PortIn) : ({ State.resetWith p with inputs := l } : State).Inv where
  sel_lt := by simp
  k_lt := by simp
  no_fault := rfl
  dbt_lt := Nat.two_pow_pos _
  color_eq := rfl

/-- In a state that meets the invariant the slot K has a word: both its lookups are in range. -/
theorem State.Inv.slotWord_ok {s : State} (hs : s.Inv) : ∃ w, s.slotWord = .ok w := by
  obtain ⟨_, _, _, hword⟩ := word_ok s.params s.color hs.sel_lt hs.k_lt
  exact ⟨_, hword⟩

theorem State.Inv.of_stepEffect {s t : State} (hs : s.Inv) (h : StepEffect s t) : t.Inv := by
  obtain ⟨hsel, hk, hfault, hdbt, hcolor⟩ := hs
  cases h with
  | reset => exact ⟨by simp, by simp, rfl, Nat.two_pow_pos _, rfl⟩
  | accept i =>
    exact ⟨acceptEvent_transitionOf_sel_lt i _ _, by simp, by simpa, by simpa using Nat.mod_lt _ (Nat.two_pow_pos _), by simpa⟩
  | lastSlot => exact ⟨by simpa, by simpa, by simpa, by simpa, by simpa⟩
  | nextSlot _ _ _ hne =>
    have hsucc : (s.k + 1).toNat < 25 := by bv_omega
    exact ⟨by simpa, hsucc, by simpa, by simpa, by simpa⟩
  | slotFault r _ hword =>
    obtain ⟨w, hok⟩ := State.Inv.slotWord_ok ⟨hsel, hk, hfault, hdbt, hcolor⟩
    simp [hok] at hword
  | keep => exact ⟨by simpa, by simpa, by simpa, by simpa, by simpa⟩

/-- Settles O13, by cases on the effect of the step; that no slot faults is where SEL and K in range are needed. -/
theorem stepKeepsInv : Obligations.StepKeepsInv :=
  fun _ _ hs h => hs.of_stepEffect (step_effect h)

/-- Settles O12: `State.reset` is the reset state of the free parameters with no input listed. -/
theorem resetMeetsInv : Obligations.ResetMeetsInv :=
  ⟨inv_resetWith Config.params [], inv_resetWith⟩

/-- Settles O10, by cases on the effect of the step; DBT by `step_dbt`. -/
theorem registersWrittenByTheirRules : Obligations.RegistersWrittenByTheirRules := by
  intro s t h
  have hdbt : t.dbt ≠ s.dbt → action s = .reset ∨ ∃ i, s.accepted = some i ∧ t.dbt = i.now := by
    have hwriters := step_dbt h
    tauto
  cases step_effect h with
  | reset hact => simp [hact]
  | accept i hacc => exact ⟨by simp [hacc], hdbt, by simp [hacc]⟩
  | lastSlot w hact _ hk => simp [hact, hk]
  | nextSlot w hact => simp [hact]
  | slotFault r hact hword => simp [hact, hword]
  | keep => simp

end Sys2Proof.Machine
end

section
/-! PROOFS. Reset values and ports (10_state.md R20 to R25), and the event at a closed port. -/

namespace Sys2Proof.Machine

/-- Settles O1: the witness of the second clause is the free parameters, `Config.params`. -/
theorem resetLeavesSpecValues : Obligations.ResetLeavesSpecValues := by
  refine ⟨fun p => ?_, Config.params, rfl⟩
  simp

/-- At an open port with an event offered, and no reset, the step's choice is the event on the wires. -/
theorem action_eq_event {s : State} {i : Instr} (hrst : s.portIn.rst = false) (hready : s.evReady = true)
    (hvalid : s.portIn.evValid = true) (htake : evTake s.params.timeW s.portIn = .ok i) : action s = .event i := by
  simp [action, hrst, hready, hvalid, htake]

/-- A transfer needs all three signals: no reset, `ev_ready` and `ev_valid` (R21). -/
theorem port_of_transferred {s : State} {i : Instr} (h : s.transferred = some i) :
    s.portIn.rst = false ∧ s.evReady = true ∧ s.portIn.evValid = true := by
  have hact : action s = .event i := (transferred_eq_some_iff s i).mp h
  rcases action_cases s with ⟨_, ha⟩ | ⟨hrst, hready, hvalid, _⟩ | ⟨_, _, _, ha⟩ | ⟨_, _, ha⟩ | ⟨_, _, _, ha⟩
  case inr.inl => exact ⟨hrst, hready, hvalid⟩
  all_goals simp [ha] at hact

/-- Settles O5: the event is the one `evTake` reads, and a transfer has all three signals. -/
theorem eventPortTransfers : Obligations.EventPortTransfers := by
  intro s
  constructor
  · intro hrst hready hvalid
    exact (transferred_eq_some_iff s _).mpr (action_eq_event hrst hready hvalid (evTake_eq _ _))
  · intro hclosed
    cases htrans : s.transferred with
    | none => rfl
    | some i =>
      obtain ⟨hrst, hready, hvalid⟩ := port_of_transferred htrans
      simp [hrst, hready, hvalid] at hclosed

/-- Settles O6: PHASE tells the two ports apart, and the invariant gives the open pixel port its word. -/
theorem outputPorts : Obligations.OutputPorts := by
  intro s
  refine ⟨evReady_iff s, pixValid_iff s, ?_, rfl, ?_, ?_⟩
  · rw [evReady_iff, pixValid_iff]
    rintro ⟨⟨hidle, _⟩, hrender, _⟩
    simp [hidle] at hrender
  · intro hvalid
    simp [State.pixWord, hvalid]
  · intro hs hvalid
    obtain ⟨w, hw⟩ := hs.slotWord_ok
    exact ⟨w, by simp [State.pixWord, hvalid, hw, Except.toOption], hw⟩

theorem exec_of_closed {s : State} (i : Instr) (h : s.evReady = false) : exec i s = .next s := by
  simp [exec_eq, eventStep, h]

/-- Settles O34: in RENDER or with a fault `ev_ready` is 0. -/
theorem closedPortTakesNoEvent : Obligations.ClosedPortTakesNoEvent := by
  intro s i hclosed
  refine exec_of_closed i (Bool.eq_false_iff.mpr fun hready => ?_)
  obtain ⟨hidle, hfault⟩ := (evReady_iff s).mp hready
  simp [hidle, hfault] at hclosed

end Sys2Proof.Machine
end

section
/-! PROOFS. Reset-free runs under the duty `MONO` (60_exceptions.md R94), and DBT along them (10_state.md R13). -/

namespace Sys2Proof.Machine

theorem resetFree_succ {n : Nat} {s t : State} (h : step s = .next t) :
    resetFree (n + 1) s ↔ action s ≠ .reset ∧ resetFree n t := by
  rw [resetFree, trace_succ _ h, List.append_eq_nil_iff, Ne, action_eq_reset_iff]
  cases s.portIn.rst <;> simp

/-- The step lemma of `MONO`: a step other than reset does not decrease DBT, and the duty for the other steps remains. -/
theorem monoDuty_succ {n : Nat} {s t : State} (h : step s = .next t) (hact : action s ≠ .reset)
    (hmono : monoDuty (n + 1) s) : s.dbt ≤ t.dbt ∧ monoDuty n t := by
  rw [monoDuty, trace_succ _ h, List.map_append] at hmono
  rcases step_dbt h with hreset | ⟨i, hacc, hdbt⟩ | hdbt
  · exact absurd hreset hact
  · obtain ⟨htrans, _⟩ := (accepted_eq_some_iff s i).mp hacc
    simp only [htrans, Option.toList_some, List.map_cons, List.map_nil, List.singleton_append] at hmono
    obtain ⟨hhead, htail⟩ := List.pairwise_cons.mp hmono
    rw [monoDuty, hdbt]
    exact ⟨hhead _ List.mem_cons_self, htail⟩
  · rw [monoDuty, hdbt]
    exact ⟨le_rfl, hmono.sublist ((List.sublist_append_right _ _).cons_cons _)⟩

/-- Settles O40, by induction on the number of steps with `monoDuty_succ` as the step. -/
theorem dbtNeverDecreases : Obligations.DbtNeverDecreases := by
  intro n
  induction n with
  | zero =>
    rintro s t - - hrun
    cases hrun
    exact le_rfl
  | succ n ih =>
    intro s t hfree hmono hrun
    obtain ⟨u, hu⟩ := step_next s
    obtain ⟨hact, hfree⟩ := (resetFree_succ hu).mp hfree
    obtain ⟨hle, hmono⟩ := monoDuty_succ hu hact hmono
    exact hle.trans (ih u t hfree hmono (run_succ hu ▸ hrun))

end Sys2Proof.Machine
end

section
/-! PROOFS. The input samples and the parameters along a step and a run (20_memory.md R32, R38), and the flat view of the
glyph ROM (20_memory.md R33). -/

namespace Sys2Proof.Machine

/-! ## The input stream -/

section
variable (s : State)

@[simp] theorem State.advance_inputs : s.advance.inputs = s.inputs.tail := by
  cases hin : s.inputs with
  | nil => simp [State.advance_nil s hin, hin]
  | cons x rest => simp [State.advance_cons s hin]

theorem State.advance_tick : s.advance.tick = if s.inputs = [] then s.tick + 1 else s.tick := by
  cases hin : s.inputs with
  | nil => simp [State.advance_nil s hin]
  | cons x rest => simp [State.advance_cons s hin]

/-- Using up a sample changes `inputs` and `tick` alone. -/
theorem State.advance_eq : s.advance = { s with inputs := s.advance.inputs, tick := s.advance.tick } := by
  cases hin : s.inputs with
  | nil => simp [State.advance_nil s hin]
  | cons x rest => simp [State.advance_cons s hin]

variable (i : Instr) (now : Nat)

@[simp] theorem acceptEvent_transitionOf_phase : (s.acceptEvent (transitionOf i) now).phase = .render := by cases i <;> rfl
@[simp] theorem acceptEvent_transitionOf_inputs : (s.acceptEvent (transitionOf i) now).inputs = s.inputs := by cases i <;> rfl
@[simp] theorem acceptEvent_transitionOf_tick : (s.acceptEvent (transitionOf i) now).tick = s.tick := by cases i <;> rfl
@[simp] theorem acceptEvent_transitionOf_pixOut : (s.acceptEvent (transitionOf i) now).pixOut = s.pixOut := by cases i <;> rfl

end

/-- Beyond `advance`, no effect of a step touches the input stream. -/
theorem StepEffect.inputs_tick {s t : State} (h : StepEffect s t) :
    t.inputs = s.advance.inputs ∧ t.tick = s.advance.tick := by
  cases h with
  | accept i => exact ⟨acceptEvent_transitionOf_inputs .., acceptEvent_transitionOf_tick ..⟩
  | reset | lastSlot | nextSlot | slotFault | keep => exact ⟨rfl, rfl⟩

/-- Settles O8: every effect of a step leaves the input stream as `advance` does. -/
theorem stepUsesOneSample : Obligations.StepUsesOneSample := by
  intro s t h
  obtain ⟨hinputs, htick⟩ := (step_effect h).inputs_tick
  rw [hinputs, htick]
  exact ⟨s.advance_inputs, s.advance_tick, s.advance_eq⟩

/-! ## The parameters -/

theorem step_params {s t : State} (h : step s = .next t) : t.params = s.params := by
  cases step_effect h with
  | reset | accept | lastSlot | nextSlot | slotFault | keep => simp

theorem run_params {n : Nat} {s t : State} (h : run n s = .next t) : t.params = s.params := by
  induction n generalizing s with
  | zero => cases h; rfl
  | succ n ih =>
    obtain ⟨u, hu⟩ := step_next s
    exact (ih (run_succ hu ▸ h)).trans (step_params hu)

/-- Settles O11: GlyphRead depends on the parameters, which no run writes. -/
theorem glyphsNeverChange : Obligations.GlyphsNeverChange := by
  intro n s t h f c
  rw [run_params h]

/-! ## The flat ROM -/

/-- Any list of glyphs packed as `flatRom` packs the ROM: bit `25 * f + c` is bit c of glyph f, as long as it lies in the 250
bits of the array. -/
theorem getLsbD_foldr_glyphs (gs : List Glyph) {f c : Nat} (hf : f < 10) (hc : c < 25) :
    (gs.foldr (fun g (rest : BitVec 250) => (rest <<< cells) ||| g.setWidth 250) 0).getLsbD (25 * f + c) =
      (gs.getD f 0).getLsbD c := by
  induction gs generalizing f with
  | nil => simp
  | cons g gs ih =>
    rw [List.foldr_cons, BitVec.getLsbD_or, BitVec.getLsbD_shiftLeft, BitVec.getLsbD_setWidth]
    cases f with
    | zero =>
      have hlt : c < 250 := by omega
      simp [hc, cells, hlt]
    | succ f =>
      have hrest : 25 * (f + 1) + c - cells = 25 * f + c := by rw [cells]; omega
      have hlt : 25 * (f + 1) + c < 250 := by omega
      have hge : ¬ 25 * (f + 1) + c < cells := by rw [cells]; omega
      have hbeyond : g.getLsbD (25 * (f + 1) + c) = false := BitVec.getLsbD_of_ge _ _ (by omega)
      rw [hrest, hbeyond, ih (by omega)]
      simp [hlt, hge]

/-- Settles O17: `getLsbD_foldr_glyphs` at the ten glyphs of the ROM. -/
theorem flatRomView : Obligations.FlatRomView := by
  intro p f c hf hc
  have hsel : (BitVec.ofNat 4 f).toNat = f := by simp; omega
  have hidx : (BitVec.ofNat 5 c).toNat = c := by simp; omega
  rw [glyphRead_ok p (by omega) (by omega), hidx, glyphWord, hsel, flatRom, getLsbD_foldr_glyphs _ hf hc]

end Sys2Proof.Machine
end

section
/-! PROOFS. A render that no reset cuts short (43_frame_renderer.md R62, R65, R66), and the event that started it
(20_memory.md R35). -/

namespace Sys2Proof.Machine

/-! ## Lists of samples and of words -/

theorem noReset_concat (l : List PortIn) (x : PortIn) : noReset (l ++ [x]) = true ↔ noReset l = true ∧ x.rst = false := by
  simp [noReset]

theorem readyCount_concat (l : List PortIn) (x : PortIn) :
    readyCount (l ++ [x]) = readyCount l + if x.pixReady then 1 else 0 := by
  simp [readyCount, List.countP_singleton]

/-- A list that ends with a transfer is an earlier part and that transfer's sample. -/
theorem exists_of_endsReady {l : List PortIn} (h : endsReady l = true) : ∃ m x, l = m ++ [x] ∧ x.pixReady = true := by
  cases l using List.reverseRecOn with
  | nil => simp [endsReady] at h
  | append_singleton m x => exact ⟨m, x, rfl, by simpa [endsReady] using h⟩

/-- One more word in slot order is the word of the next slot. -/
theorem slotWords_concat (p : Params) (color : Color) (sel : Sel) (k : Nat) (ws : List PixelWord) (w : PixelWord) :
    SlotWords p color sel k (ws ++ [w]) ↔
      SlotWords p color sel k ws ∧ word p color sel (BitVec.ofNat 5 (k + ws.length)) = .ok w := by
  simp [SlotWords, List.range'_concat]

/-! ## One step of a render -/

/-- A render at a slot that has a word, with the input that is left: the state from which R65 is read. -/
structure State.Rendering (s : State) (inputs : List PortIn) : Prop where
  phase_eq : s.phase = .render
  no_fault : s.fault = none
  sel_lt : s.sel.toNat < 10
  k_lt : s.k.toNat < 25
  inputs_eq : s.inputs = inputs

/-- A render that has gone on by `n` slots and has delivered the words `ws` since `s`, with `rest` of the input left. -/
def State.rendered (s : State) (n : Nat) (ws : List PixelWord) (rest : List PortIn) : State :=
  { s with k := s.k + BitVec.ofNat 5 n, inputs := rest, pixOut := s.pixOut ++ ws }

theorem rendered_zero (s : State) : s.rendered 0 [] s.inputs = s := by
  simp [State.rendered]

theorem rendered_k {s : State} {n : Nat} (ws : List PixelWord) (rest : List PortIn) (h : s.k.toNat + n < 25) :
    (s.rendered n ws rest).k.toNat = s.k.toNat + n := by
  simp only [State.rendered, BitVec.toNat_add, BitVec.toNat_ofNat]
  omega

theorem State.Rendering.rendered {s : State} {inputs : List PortIn} (hs : s.Rendering inputs) {n : Nat}
    (ws : List PixelWord) (rest : List PortIn) (h : s.k.toNat + n < 25) : (s.rendered n ws rest).Rendering rest where
  phase_eq := hs.phase_eq
  no_fault := hs.no_fault
  sel_lt := hs.sel_lt
  k_lt := (rendered_k ws rest h).trans_lt h
  inputs_eq := rfl

section
variable {s : State} {x : PortIn} {l rest : List PortIn}

/-- In a render the step is the slot step, whatever is offered on the event port (R78). -/
theorem step_of_rendering (hs : s.Rendering (x :: rest)) (hrst : x.rst = false) :
    step s = .next (slotStep x.pixReady { s with inputs := rest }) := by
  have hvalid : s.pixValid = true := (pixValid_iff s).mpr ⟨hs.phase_eq, hs.no_fault⟩
  have hready : s.evReady = false := by simp [State.evReady, hs.phase_eq]
  have hact : action s = .slot x.pixReady := by
    simp [action, s.portIn_cons hs.inputs_eq, hrst, hready, hvalid]
  rw [step, hact, s.advance_cons hs.inputs_eq]

theorem step_blocked (hs : s.Rendering (x :: rest)) (hrst : x.rst = false) (hpix : x.pixReady = false) :
    step s = .next { s with inputs := rest } := by
  rw [step_of_rendering hs hrst, hpix]
  rfl

/-- With the consumer ready, slot K's word is delivered; then K moves on, or after slot 24 the block is back in IDLE. -/
theorem step_delivers (hs : s.Rendering (x :: rest)) (hrst : x.rst = false) (hpix : x.pixReady = true) :
    ∃ w, word s.params s.color s.sel s.k = .ok w ∧
      step s = .next (if s.k = 24 then { s with inputs := rest, phase := .idle, pixOut := s.pixOut ++ [w] }
        else { s with inputs := rest, k := s.k + 1, pixOut := s.pixOut ++ [w] }) := by
  obtain ⟨_, _, _, hword⟩ := word_ok s.params s.color hs.sel_lt hs.k_lt
  have hslot : State.slotWord { s with inputs := rest } = .ok _ := hword
  refine ⟨_, hword, ?_⟩
  rw [step_of_rendering hs hrst, hpix, slotStep, hslot]
  rfl

/-! ## Runs of a render -/

/-- Before the render's last word: K has moved on by one slot for each ready sample, and their words are delivered in slot
order. Nothing else has changed. -/
theorem run_rendering (hs : s.Rendering (l ++ rest)) (hl : noReset l = true) (hcount : s.k.toNat + readyCount l < 25) :
    ∃ ws, ws.length = readyCount l ∧ SlotWords s.params s.color s.sel s.k.toNat ws ∧
      run l.length s = .next (s.rendered (readyCount l) ws rest) := by
  induction l using List.reverseRecOn generalizing rest with
  | nil =>
    obtain rfl := hs.inputs_eq
    exact ⟨[], rfl, rfl, congrArg _ (rendered_zero s).symm⟩
  | append_singleton l x ih =>
    obtain ⟨hl, hrst⟩ := (noReset_concat l x).mp hl
    rw [readyCount_concat] at hcount ⊢
    rw [List.append_assoc] at hs
    have hbefore : s.k.toNat + readyCount l < 25 := by omega
    obtain ⟨ws, hlen, hws, hrun⟩ := ih hs hl hbefore
    have hmid := hs.rendered ws (x :: rest) hbefore
    have hmidK := rendered_k ws (x :: rest) hbefore
    rw [List.length_append, run_add hrun]
    cases hpix : x.pixReady with
    | false => exact ⟨ws, hlen, hws, run_succ (n := 0) (step_blocked hmid hrst hpix)⟩
    | true =>
      rw [hpix, if_pos rfl] at hcount
      obtain ⟨w, hw, hstep⟩ := step_delivers hmid hrst hpix
      have hne : (s.rendered (readyCount l) ws (x :: rest)).k ≠ 24 := fun h => by
        simp [h] at hmidK
        omega
      refine ⟨ws ++ [w], by simp [hlen], (slotWords_concat ..).mpr ⟨hws, ?_⟩, ?_⟩
      · rw [hlen, ← hmidK, BitVec.ofNat_toNat, BitVec.setWidth_eq]
        exact hw
      · rw [if_neg hne] at hstep
        exact (run_succ (n := 0) hstep).trans (by simp [State.rendered, BitVec.ofNat_add, BitVec.add_assoc])

/-- The whole render: at the last ready sample the word of slot 24 is delivered, and the block is back in IDLE. -/
theorem run_render_completes (hs : s.Rendering (l ++ rest)) (hl : noReset l = true)
    (hcount : readyCount l = 25 - s.k.toNat) (hend : endsReady l = true) :
    ∃ ws, ws.length = 25 - s.k.toNat ∧ SlotWords s.params s.color s.sel s.k.toNat ws ∧
      run l.length s = .next { s with phase := .idle, k := 24, inputs := rest, pixOut := s.pixOut ++ ws } := by
  obtain ⟨m, x, rfl, hpix⟩ := exists_of_endsReady hend
  obtain ⟨hm, hrst⟩ := (noReset_concat m x).mp hl
  have hk := hs.k_lt
  rw [List.append_assoc] at hs
  rw [readyCount_concat, hpix, if_pos rfl] at hcount
  have hbefore : s.k.toNat + readyCount m = 24 := by omega
  obtain ⟨ws, hlen, hws, hrun⟩ := run_rendering hs hm (by omega)
  have hlastK : (s.rendered (readyCount m) ws (x :: rest)).k = 24 :=
    BitVec.eq_of_toNat_eq ((rendered_k ws _ (by omega)).trans hbefore)
  obtain ⟨w, hw, hstep⟩ := step_delivers (hs.rendered (n := readyCount m) ws (x :: rest) (by omega)) hrst hpix
  rw [hlastK] at hw
  refine ⟨ws ++ [w], by simp; omega, (slotWords_concat ..).mpr ⟨hws, ?_⟩, ?_⟩
  · rw [hlen, hbefore]
    exact hw
  · rw [if_pos hlastK] at hstep
    rw [List.length_append, run_add hrun]
    exact (run_succ (n := 0) hstep).trans (by rw [hlastK]; simp [State.rendered])

end

/-! ## The event that starts a render -/

/-- The step that accepts an event (R71); the event's `now` is in range. -/
theorem step_of_accepted {s : State} {i : Instr} (h : s.accepted = some i) :
    step s = .next (s.advance.acceptEvent (transitionOf i) i.now) ∧ i.now < 2 ^ s.params.timeW := by
  have hact : action s = .event i := (transferred_eq_some_iff s i).mp ((accepted_eq_some_iff s i).mp h).1
  obtain ⟨t, ht⟩ := step_next s
  cases step_effect ht with
  | accept j hacc hnow =>
    obtain rfl : i = j := Option.some.inj (h.symm.trans hacc)
    exact ⟨ht, hnow⟩
  | reset hact' | lastSlot _ hact' | nextSlot _ hact' | slotFault _ hact' => simp [hact] at hact'
  | keep hacc => simp [h] at hacc

theorem evReady_of_accepted {s : State} {i : Instr} (h : s.accepted = some i) : s.evReady = true :=
  (port_of_transferred ((accepted_eq_some_iff s i).mp h).1).2.1

/-- An accepted event leaves the block at slot 0 of a render, with the rest of the input before it. -/
theorem rendering_acceptEvent {s : State} {x : PortIn} {l : List PortIn} (i : Instr) (now : Nat)
    (hfault : s.fault = none) (hin : s.inputs = x :: l) :
    (s.advance.acceptEvent (transitionOf i) now).Rendering l where
  phase_eq := by simp
  no_fault := by simpa
  sel_lt := acceptEvent_transitionOf_sel_lt ..
  k_lt := by simp
  inputs_eq := by simp [hin]

/-- Settles O38: the accepted event starts a render at slot 0, which `run_rendering` follows up to the 25th word and
`run_render_completes` through it. -/
theorem eventHandledToCompletion : Obligations.EventHandledToCompletion := by
  intro s i x l rest hacc hin hl
  obtain ⟨hstep, hnow⟩ := step_of_accepted hacc
  have hfault : s.fault = none := ((evReady_iff s).mp (evReady_of_accepted hacc)).2
  have hrender := rendering_acceptEvent i i.now hfault hin
  refine ⟨_, hstep, by simpa using Nat.mod_eq_of_lt hnow, hrender.sel_lt, by simp, fun hcount => ?_, fun hcount hend => ?_⟩
  · obtain ⟨ws, hlen, hws, hrun⟩ := run_rendering hrender hl (by simpa using hcount)
    have hclosed : ((s.advance.acceptEvent (transitionOf i) i.now).rendered (readyCount l) ws rest).evReady = false := by
      simp [State.evReady, State.rendered]
    exact ⟨_, ws, (run_succ hstep).trans hrun, hclosed, (eventPortTransfers _).2 (.inr (.inl hclosed)), rfl, rfl, hlen,
      by simpa using hws, by simp [State.rendered]⟩
  · obtain ⟨ws, hlen, hws, hrun⟩ := run_render_completes hrender hl (by simpa using hcount) hend
    exact ⟨_, ws, (run_succ hstep).trans hrun, by simp [evReady_iff, hfault], rfl, rfl, by simpa using hlen,
      by simpa using hws, by simp⟩

end Sys2Proof.Machine
end

section
/-! PROOFS. The event map (30_encoding.md R40, R41): `decode` and `encode` as inverses between the records of 1 + `TIME_W` bits
and the well-formed events. -/

namespace Sys2Proof

/-! ## Records and events -/

/-- The event of a record, whatever its width: the pin bit selects the kind, the bits above it are `now` (R41). -/
def Instr.ofRecord (record : Nat) : Instr :=
  if record % 2 = 0 then .evA (record / 2) else .evB (record / 2)

theorem decode_eq_ofRecord {w record : Nat} (h : record < 2 ^ (w + 1)) : decode w record = .ok (.ofRecord record) :=
  decode_ok h

theorem decode_eq_error {w record : Nat} (h : 2 ^ (w + 1) ≤ record) : decode w record = .error .recordTooWide :=
  if_neg (Nat.not_lt.mpr h)

@[simp] theorem Instr.ofRecord_encode (i : Instr) : Instr.ofRecord (encode i) = i := by
  cases i with
  | evA now => simp [Instr.ofRecord, encode]
  | evB now =>
    have hnow : (now * 2 + 1) / 2 = now := by omega
    simp [Instr.ofRecord, encode, hnow]

@[simp] theorem encode_ofRecord (record : Nat) : encode (.ofRecord record) = record := by
  unfold Instr.ofRecord
  split
  · next heven => exact Nat.div_mul_cancel (Nat.dvd_of_mod_eq_zero heven)
  · next hodd => rw [encode]; omega

/-- An event is well-formed exactly when its record has 1 + `TIME_W` bits (R40). -/
theorem wellFormed_iff_encode_lt (w : Nat) (i : Instr) : i.wellFormed w = true ↔ encode i < 2 ^ (w + 1) := by
  rw [pow_succ]
  cases i with
  | evA now => simp [Instr.wellFormed, encode]
  | evB now =>
    simp only [Instr.wellFormed, encode, decide_eq_true_iff]
    omega

/-- Settles O44: a well-formed event's record has the width that `decode` accepts, and its two fields give the event back. -/
theorem decodeOfEncode : Obligations.DecodeOfEncode := by
  intro w i hi
  have hlt : encode i < 2 ^ (w + 1) := (wellFormed_iff_encode_lt w i).mp hi
  exact ⟨hlt, by rw [decode_eq_ofRecord hlt, Instr.ofRecord_encode]⟩

/-! ## A step with no event offered -/

namespace Machine

/-- With `ev_valid` = 0 the choice of a step reads `rst` and `pix_ready` alone among the input ports (R41). -/
theorem action_of_not_evValid {s : State} (h : s.portIn.evValid = false) :
    action s = if s.portIn.rst then .reset else if s.pixValid then .slot s.portIn.pixReady else .wait := by
  rcases step_cases s with ⟨hrst, ha, _⟩ | ⟨_, _, hvalid, _⟩ | ⟨hrst, hpix, ha, _⟩ | ⟨hrst, _, hpix, ha, _⟩
  · simp [ha, hrst]
  · simp [h] at hvalid
  · simp [ha, hrst, hpix]
  · simp [ha, hrst, hpix]

theorem action_cons_of_not_evValid (s : State) {x : PortIn} (rest : List PortIn) (h : x.evValid = false) :
    action { s with inputs := x :: rest } =
      if x.rst then .reset else if s.pixValid then .slot x.pixReady else .wait :=
  action_of_not_evValid (s := { s with inputs := x :: rest }) h

/-- A step depends on the input ports only through its choice and through the samples that are left. -/
theorem step_congr {s t : State} (hact : action s = action t) (hadvance : s.advance = t.advance) : step s = step t := by
  rw [step, step, hact, hadvance]

end Machine

/-- Settles O45: a record of the right width decodes to `Instr.ofRecord`, whose inverse is `encode`; and with no event offered
two samples with the same `rst` and `pix_ready` lead to the same choice of the step. -/
theorem eventMapIsComplete : Obligations.EventMapIsComplete := by
  refine ⟨fun w r hr => ?_, fun w r hr => decode_eq_error hr, fun s x y rest hx hy hrst hpix => ?_⟩
  · have hwf : (Instr.ofRecord r).wellFormed w = true := (wellFormed_iff_encode_lt w _).mpr (by rwa [encode_ofRecord])
    exact ⟨.ofRecord r, decode_eq_ofRecord hr, hwf, encode_ofRecord r, rfl⟩
  · refine Machine.step_congr ?_ rfl
    rw [Machine.action_cons_of_not_evValid s rest hx, Machine.action_cons_of_not_evValid s rest hy, hrst, hpix]

end Sys2Proof
end

section
/-! PROOFS. The words a step delivers (30_encoding.md R44). -/

namespace Sys2Proof.Machine

/-- A slot that has a word has one of exactly two (R44, R63). -/
theorem word_eq_off_or_on {p : Params} {color : Color} {sel : Sel} {k : Index} {w : PixelWord}
    (h : word p color sel k = .ok w) : w = offWord ∨ w = pack p color := by
  by_cases hk : k.toNat < 25
  · by_cases hsel : sel.toNat < 10
    · obtain ⟨c, _, _, hword⟩ := word_ok p color hsel hk
      obtain rfl := Except.ok.inj (hword.symm.trans h)
      cases (glyphWord p sel).getLsbD c.toNat with
      | false => exact .inl rfl
      | true => exact .inr rfl
    · simp [word_frame_error p color (Nat.not_lt.mp hsel) hk] at h
  · simp [word_index_error p color sel (Nat.not_lt.mp hk)] at h

/-- Settles O23, by cases on the effect of the step: only the transfer of a slot's word extends the pixel stream. -/
theorem deliveredWordIsOnOrOff : Obligations.DeliveredWordIsOnOrOff := by
  refine ⟨pack_black, fun s t h => ?_⟩
  cases step_effect h with
  | lastSlot w hact hword | nextSlot w hact hword =>
    obtain rfl | rfl := word_eq_off_or_on hword
    · exact .inr ⟨hact, .inl (by simp [offWord])⟩
    · exact .inr ⟨hact, .inr (by simp)⟩
  | reset | accept | slotFault | keep => exact .inl (by simp)

end Sys2Proof.Machine
end

section
/-! PROOFS. The frame table, glyph by glyph (41_frame_table.md R51, R52). -/

namespace Sys2Proof.Machine

theorem glyphWord_zero (p : Params) : glyphWord p 0 = glyph0 := rfl

/-- Entry f of the ROM is entry f - 1 of the parameter, since glyph 0 stands before it (R53). -/
theorem glyphWord_param (p : Params) {f : Sel} (h : f.toNat - 1 < 9) (hf : 1 ≤ f.toNat) :
    glyphWord p f = p.glyphs[f.toNat - 1] := by
  obtain ⟨i, hi⟩ : ∃ i, f.toNat = i + 1 := ⟨f.toNat - 1, by omega⟩
  have hlt : i < 9 := by omega
  simp [glyphWord, glyphRom, hi, hlt]

/-- The word of glyph 0 holds the drawn pattern, cell 0 in bit 0 (R45, R52). -/
theorem glyph0_cells : (List.range 25).map glyph0.getLsbD =
    [0,1,1,1,0, 0,1,0,1,0, 0,1,0,1,0, 0,1,0,1,0, 0,1,1,1,0].map fun b : Nat => b == 1 := by decide

theorem glyphRead_zero (p : Params) {c : Index} (hc : c.toNat < 25) :
    glyphRead p 0 c = .ok (glyph0.getLsbD c.toNat) := by
  rw [glyphRead_ok p (by decide) hc, glyphWord_zero]

/-- Settles O15: a legal read is one bit of `glyphWord`, and each of the two range checks has its fault. -/
theorem glyphReadValue : Obligations.GlyphReadValue := by
  refine fun p f c => ⟨?_, fun h hf hc => ?_, glyphRead_frame_error p c, glyphRead_index_error p⟩
  · rintro rfl hc
    exact glyphRead_zero p hc
  · rw [glyphRead_ok p (by omega) hc, glyphWord_param p h hf]

/-- Settles O16: each cell read is a bit of `glyph0`, and the 25 bits are `glyph0_cells`. -/
theorem glyphZeroPattern : Obligations.GlyphZeroPattern := by
  intro p
  have hread : ∀ c ∈ List.range 25, glyphRead p 0 (BitVec.ofNat 5 c) = .ok (glyph0.getLsbD c) := by
    intro c hc
    have hlt : c < 25 := List.mem_range.mp hc
    have hidx : (BitVec.ofNat 5 c).toNat = c := by simp; omega
    rw [glyphRead_zero p (by omega), hidx]
  calc (List.range 25).map (fun c => glyphRead p 0 (BitVec.ofNat 5 c))
      = ((List.range 25).map glyph0.getLsbD).map .ok := by rw [List.map_map]; exact List.map_congr_left hread
    _ = _ := by rw [glyph0_cells, List.map_map]; rfl

end Sys2Proof.Machine
end

section
/-! PROOFS. The index corrector: arithmetic on cell numbers, and `corr` as its five-bit form (42_index_corrector.md R55 to R61). -/

namespace Sys2Proof.Machine

/-! ## The corrector on cell numbers -/

/-- The cell number that the two cases of R55 answer on [0,25), without the five-bit width; `corr_of_lt` ties it to `corr`. -/
def corrCell (n : Nat) : Nat :=
  if (5 ≤ n ∧ n < 10) ∨ (15 ≤ n ∧ n < 20) then
    if n < 10 then n + 10 else n - 10
  else 24 - n

theorem corrCell_low_band {n : Nat} (hlow : 5 ≤ n ∧ n < 10) : corrCell n = n + 10 := by
  rw [corrCell, if_pos (.inl hlow), if_pos hlow.2]

theorem corrCell_high_band {n : Nat} (hhigh : 15 ≤ n ∧ n < 20) : corrCell n = n - 10 := by
  rw [corrCell, if_pos (.inr hhigh), if_neg (by omega)]

theorem corrCell_outside_bands {n : Nat} (hout : ¬((5 ≤ n ∧ n < 10) ∨ (15 ≤ n ∧ n < 20))) : corrCell n = 24 - n :=
  if_neg hout

theorem corrCell_lt (n : Nat) : corrCell n < 25 := by
  unfold corrCell; split_ifs <;> omega

/-- The two bands swap, and the cells outside them are closed under the reversal (R59). -/
theorem corrCell_corrCell {n : Nat} (hn : n < 25) : corrCell (corrCell n) = n := by
  by_cases hband : (5 ≤ n ∧ n < 10) ∨ (15 ≤ n ∧ n < 20)
  · obtain hlow | hhigh := hband
    · rw [corrCell_low_band hlow, corrCell_high_band (by omega)]; omega
    · rw [corrCell_high_band hhigh, corrCell_low_band (by omega)]; omega
  · rw [corrCell_outside_bands hband, corrCell_outside_bands (by omega)]; omega

/-- No cell of a band stays in its band, so a fixed point is one of the reversal: the middle cell (R59). -/
theorem corrCell_eq_self_iff {n : Nat} : corrCell n = n ↔ n = 12 := by
  unfold corrCell; split_ifs <;> omega

/-- A half turn reverses rows and columns and keeps the parity of a row. -/
theorem serp_half_turn {n : Nat} (hn : n < 25) : serp (24 - n) = 24 - serp n := by
  have hrow : (24 - n) / 5 = 4 - n / 5 := by omega
  have hcol : (24 - n) % 5 = 4 - n % 5 := by omega
  unfold serp
  rw [hrow, hcol]
  split_ifs <;> omega

/-- The bands are the odd rows, which keep their column order; the even rows are reversed (R60). -/
theorem corrCell_eq_sub_serp {n : Nat} (hn : n < 25) : corrCell n = 24 - serp n := by
  unfold corrCell serp; split_ifs <;> omega

/-! ## The corrector on indices -/

theorem corr_of_lt {i : Index} (h : i.toNat < 25) : corr i = .ok (BitVec.ofNat 5 (corrCell i.toNat)) := by
  unfold corr corrCell
  rw [if_neg (Nat.not_le.mpr h)]
  split
  · split <;> rfl
  · rfl

theorem corr_ofNat {n : Nat} (hn : n < 25) : corr (BitVec.ofNat 5 n) = .ok (BitVec.ofNat 5 (corrCell n)) := by
  have hidx : (BitVec.ofNat 5 n).toNat = n := by simp; omega
  rw [corr_of_lt (by omega), hidx]

/-- The graph of `corr`: it answers on [0,25) alone, and with the cell of `corrCell`. -/
theorem corr_eq_ok_iff {i c : Index} : corr i = .ok c ↔ i.toNat < 25 ∧ c.toNat = corrCell i.toNat := by
  by_cases h : i.toNat < 25
  · have hidx : (BitVec.ofNat 5 (corrCell i.toNat)).toNat = corrCell i.toNat := by
      have := corrCell_lt i.toNat
      simp; omega
    rw [corr_of_lt h, Except.ok.injEq, ← BitVec.toNat_inj, hidx, eq_comm, and_iff_right h]
  · simp [corr_error (Nat.not_lt.mp h), h]

theorem corr_ok_lt {i c : Index} (h : corr i = .ok c) : c.toNat < 25 := by
  rw [(corr_eq_ok_iff.mp h).2]
  exact corrCell_lt _

/-- `corr` is its own inverse (R59). -/
theorem corr_symm {i c : Index} (h : corr i = .ok c) : corr c = .ok i := by
  obtain ⟨hi, hc⟩ := corr_eq_ok_iff.mp h
  exact corr_eq_ok_iff.mpr ⟨corr_ok_lt h, by rw [hc, corrCell_corrCell hi]⟩

theorem corr_inj {i j c : Index} (hi : corr i = .ok c) (hj : corr j = .ok c) : i = j :=
  Except.ok.inj ((corr_symm hi).symm.trans (corr_symm hj))

/-- The only fixed point is the middle cell (R59). -/
theorem corr_fixed_iff {i c : Index} (h : corr i = .ok c) : c = i ↔ i = 12 := by
  rw [← BitVec.toNat_inj, (corr_eq_ok_iff.mp h).2, corrCell_eq_self_iff, ← BitVec.toNat_inj]
  rfl

/-! ## The statements -/

/-- Settles O18: entry i of the table is `corrCell i` as an index. -/
theorem corrTable : Obligations.CorrTable := by
  have hread : ∀ i ∈ List.range 25, corr (BitVec.ofNat 5 i) = .ok (BitVec.ofNat 5 (corrCell i)) :=
    fun i hi => corr_ofNat (List.mem_range.mp hi)
  have hcells : (List.range 25).map (fun i => BitVec.ofNat 5 (corrCell i)) =
      [24,23,22,21,20, 15,16,17,18,19, 14,13,12,11,10, 5,6,7,8,9, 4,3,2,1,0] := by decide
  rw [Obligations.CorrTable, List.map_congr_left hread, ← hcells, List.map_map]
  rfl

/-- Settles O19: that `corr` is its own inverse (`corr_symm`) makes it one-to-one and onto. -/
theorem corrIsInvolution : Obligations.CorrIsInvolution := by
  refine ⟨fun i hi => ?_, fun i j c => corr_inj, fun c hc => ?_⟩
  · obtain ⟨c, hcorr, hlt⟩ := corr_ok hi
    exact ⟨c, hcorr, hlt, corr_symm hcorr, corr_fixed_iff hcorr⟩
  · obtain ⟨i, hcorr, hlt⟩ := corr_ok hc
    exact ⟨i, hlt, corr_symm hcorr⟩

/-- Settles O20: `corrCell` is the half turn after `serp`, and the two commute (`serp_half_turn`). -/
theorem corrIsTurnedSerpentine : Obligations.CorrIsTurnedSerpentine := by
  intro i hi
  have hturn : corr (BitVec.ofNat 5 i) = .ok (BitVec.ofNat 5 (24 - serp i)) := by
    rw [corr_ofNat hi, corrCell_eq_sub_serp hi]
  exact ⟨hturn, by rw [serp_half_turn hi, hturn]⟩

/-- Settles O21: below 25 `corr` answers with a cell, and from 25 on with its one fault. -/
theorem corrFaultsOutsideDomain : Obligations.CorrFaultsOutsideDomain := by
  intro i r
  by_cases h : 25 ≤ i.toNat
  · rw [corr_error h, Except.error.injEq, eq_comm, and_iff_right h]
  · simp [corr_of_lt (Nat.not_le.mp h), h]

end Sys2Proof.Machine
end

section
/-! PROOFS. The frame renderer: the word of a slot, the slot step on any input stream, and the render of frame 0
(43_frame_renderer.md R63 to R67). -/

namespace Sys2Proof.Machine

/-! ## The word of a slot -/

/-- Settles O22: the three cases are `word_ok` and the two faults, and the black word is 0 whichever way the cell decides. -/
theorem slotWordValue : Obligations.SlotWordValue := by
  refine fun p color sel k => ⟨fun hsel hk => ?_, word_index_error p color sel, word_frame_error p color⟩
  obtain ⟨c, hcorr, hc, hword⟩ := word_ok p color hsel hk
  refine ⟨c, _, hcorr, glyphRead_ok p hsel hc, hword, fun hblack => ?_⟩
  have hpack : pack p color = 0 := hblack ▸ pack_black p
  rw [hword, hpack, offWord, ite_self]

/-! ## The slot step -/

/-- In a render with no reset the step is the slot step, whatever the input stream lists (R65, R78). -/
theorem step_of_pixValid {s : State} (hrst : s.portIn.rst = false) (hvalid : s.pixValid = true) :
    step s = .next (slotStep s.portIn.pixReady s.advance) := by
  obtain ⟨_, _, hexclusive, _⟩ := outputPorts s
  rcases step_cases s with ⟨hreset, _⟩ | ⟨_, hready, _⟩ | ⟨_, _, _, hstep⟩ | ⟨_, _, hclosed, _⟩
  · simp [hrst] at hreset
  · exact absurd ⟨hready, hvalid⟩ hexclusive
  · exact hstep
  · simp [hvalid] at hclosed

theorem pixWord_advance (s : State) : s.advance.pixWord = s.pixWord := by
  simp [State.pixWord, State.pixValid]

/-- The delivering branch of R65, also where no input is listed (`step_delivers` has a listed sample). -/
theorem step_of_slotWord {s : State} {w : PixelWord} (hrst : s.portIn.rst = false) (hvalid : s.pixValid = true)
    (hready : s.portIn.pixReady = true) (hslot : s.slotWord = .ok w) :
    step s = .next (if s.k = 24 then { s.advance with pixOut := s.pixOut ++ [w], phase := .idle }
      else { s.advance with pixOut := s.pixOut ++ [w], k := s.k + 1 }) := by
  rw [step_of_pixValid hrst hvalid, hready, slotStep, slotWord_advance, hslot, if_pos rfl, State.advance_k]
  simp only [State.pixWrite, State.completeRender, State.setPhase, State.setK, State.advance_pixOut]

/-- Settles O24: the two branches of `step_of_slotWord`, whose word is there since SEL and K are in range. -/
theorem slotStepDelivers : Obligations.SlotStepDelivers := by
  intro s hrst hphase hfault
  have hvalid : s.pixValid = true := (pixValid_iff s).mpr ⟨hphase, hfault⟩
  refine ⟨fun hblocked => ⟨?_, pixWord_advance s⟩, fun hready hsel hk => ?_⟩
  · rw [step_of_pixValid hrst hvalid, hblocked]
    rfl
  · obtain ⟨_, _, _, hword⟩ := word_ok s.params s.color hsel hk
    have hstep := step_of_slotWord hrst hvalid hready hword
    refine ⟨_, hword, ?_, fun hlast => by rw [hstep, if_pos hlast], fun hnext => by rw [hstep, if_neg hnext]⟩
    rw [State.pixWord, if_pos hvalid, State.slotWord, hword]
    rfl

/-! ## Whole renders -/

/-- Settles O25: the hypotheses are those of `run_render_completes`. -/
theorem renderDeliversEverySlot : Obligations.RenderDeliversEverySlot :=
  fun _ _ _ hphase hfault hsel hk hin hl hcount hend => run_render_completes ⟨hphase, hfault, hsel, hk, hin⟩ hl hcount hend

/-- Glyph 0 is drawn symmetrically: the cell at a corrected index is the cell at the index itself (R67). -/
theorem glyph0_corrCell : ∀ n < 25, glyph0.getLsbD (corrCell n) = glyph0.getLsbD n := by decide

theorem glyphRead_zero_corr (p : Params) {k c : Index} (h : corr k = .ok c) : glyphRead p 0 c = glyphRead p 0 k := by
  obtain ⟨hk, hc⟩ := corr_eq_ok_iff.mp h
  rw [glyphRead_zero p (corr_ok_lt h), glyphRead_zero p hk, hc, glyph0_corrCell _ hk]

/-- In frame 0 slot k shows cell k itself (R67). -/
theorem word_frame_zero (p : Params) (color : Color) {n : Nat} (hn : n < 25) :
    word p color 0 (BitVec.ofNat 5 n) = .ok (if glyph0.getLsbD n then pack p color else 0) := by
  have hidx : (BitVec.ofNat 5 n).toNat = n := by simp; omega
  have hk : (BitVec.ofNat 5 n).toNat < 25 := by omega
  obtain ⟨c, hcorr, _, hword⟩ := word_ok p color (sel := 0) (by decide) hk
  rw [hword, glyphWord_zero, (corr_eq_ok_iff.mp hcorr).2, glyph0_corrCell _ hk, hidx, offWord]

/-- The 25 words of frame 0 are the glyph's cells in order, each with its on or off word. -/
theorem eq_of_slotWords_frame_zero {p : Params} {color : Color} {ws : List PixelWord} (hlen : ws.length = 25)
    (h : SlotWords p color 0 0 ws) :
    ws = ((List.range 25).map glyph0.getLsbD).map (fun b => if b then pack p color else 0) := by
  have hword : ∀ n ∈ List.range 25,
      word p color 0 (BitVec.ofNat 5 n) = .ok (if glyph0.getLsbD n then pack p color else 0) :=
    fun n hn => word_frame_zero p color (List.mem_range.mp hn)
  have hok : Function.Injective (Except.ok : PixelWord → Except Fault PixelWord) := fun _ _ => Except.ok.inj
  rw [SlotWords, hlen, ← List.range_eq_range', List.map_congr_left hword] at h
  refine hok.list_map (h.symm.trans ?_)
  rw [List.map_map, List.map_map]
  rfl

/-- Settles O26: `run_render_completes` delivers the 25 slots' words, which `glyph0_corrCell` and `glyph0_cells` read off. -/
theorem frameZeroRender : Obligations.FrameZeroRender := by
  refine ⟨fun s rest hphase hfault hsel hk hin => ?_, fun p k c => glyphRead_zero_corr p⟩
  have hs : s.Rendering (List.replicate 25 sampleReady ++ rest) := ⟨hphase, hfault, by simp [hsel], by simp [hk], hin⟩
  obtain ⟨ws, hlen, hws, hrun⟩ := run_render_completes hs (by decide) (by rw [hk]; decide) (by decide)
  rw [hsel, hk] at hws
  refine ⟨ws, ?_, hrun⟩
  rw [eq_of_slotWords_frame_zero (by simpa [hk] using hlen) hws, glyph0_cells, List.map_map]
  simp

end Sys2Proof.Machine
end

section
/-! PROOFS. The debounce gate as a bit-vector test, the two transitions of SEL, and the event at an open port
(44_selection_fsm.md R69 to R77). -/

namespace Sys2Proof.Machine

/-! ## The gate -/

/-- The clock difference is the wrapping subtraction of the two samples on `TIME_W` wires (R70). -/
theorem timeDelta_eq_toNat_sub (w now dbt : Nat) :
    timeDelta w now dbt = (BitVec.ofNat w now - BitVec.ofNat w dbt).toNat := by
  calc timeDelta w now dbt = (BitVec.ofInt w ((now : Int) - dbt)).toNat := (BitVec.toNat_ofInt _).symm
    _ = (BitVec.ofNat w now - BitVec.ofNat w dbt).toNat := by
      rw [Int.sub_eq_add_neg, BitVec.ofInt_add, BitVec.ofInt_neg, BitVec.ofInt_natCast, BitVec.ofInt_natCast,
        ← BitVec.sub_eq_add_neg]

/-- With times in range and in order the gate tests the elapsed time. -/
theorem gate_iff_of_le {w now dbt : Nat} (h : dbt ≤ now) (hw : now < 2 ^ w) :
    gate w now dbt = true ↔ 250000 < now - dbt := by
  rw [gate_iff, timeDelta_of_le h hw]

theorem gate_eq_false_of_le {w now dbt : Nat} (h : dbt ≤ now) (hw : now < 2 ^ w) (hwindow : now - dbt ≤ 250000) :
    gate w now dbt = false :=
  Bool.eq_false_iff.mpr fun hpass => Nat.not_lt.mpr hwindow ((gate_iff_of_le h hw).mp hpass)

/-- Settles O29: the clock difference is the bit-vector subtraction, and the elapsed time when in range and in order. -/
theorem gateIsStrictModularTest : Obligations.GateIsStrictModularTest := by
  refine fun w now dbt => ⟨?_, gate_iff_of_le⟩
  rw [gate_iff, timeDelta_eq_toNat_sub]

/-! ## The two meanings -/

section
variable {s : State} {i : Instr}

/-- An event that fails the gate has no effect, whatever the port (R72). -/
theorem exec_of_gate_fails (hgate : gate s.params.timeW i.now s.dbt = false) : exec i s = .next s := by
  simp [exec_eq, eventStep, hgate]

/-- At an open port an event that passes the gate is accepted (R71): DBT takes its `now`, SEL goes by the event's own
transition, and a render starts at slot 0. -/
theorem exec_of_gate_passes (hready : s.evReady = true) (hgate : gate s.params.timeW i.now s.dbt = true)
    (hnow : i.now < 2 ^ s.params.timeW) :
    exec i s = .next { s with dbt := i.now, sel := (transitionOf i s).sel, k := 0, phase := .render } := by
  have hdbt : s.setDbt i.now = { s with dbt := i.now } := by rw [State.setDbt, Nat.mod_eq_of_lt hnow]
  rw [exec_eq, eventStep, if_pos hready, if_pos hgate, State.acceptEvent, hdbt]
  cases i <;> rfl

end

/-- R74 by the value of SEL: only 1..10 go down by one; at 0 the subtraction wraps to 15, out of range like 10..14. -/
theorem selDecrement_eq (v : Sel) :
    selDecrement v = if 1 ≤ v.toNat ∧ v.toNat ≤ 10 then BitVec.ofNat 4 (v.toNat - 1) else 9 := by
  unfold selDecrement frameCount
  by_cases hin : 1 ≤ v.toNat ∧ v.toNat ≤ 10
  · have hlt : ¬ 10 ≤ (v - 1).toNat := by bv_omega
    rw [if_neg hlt, if_pos hin]
    bv_omega
  · have hge : 10 ≤ (v - 1).toNat := by bv_omega
    rw [if_pos hge, if_neg hin]

/-- Settles O31: the next state of `exec_of_gate_passes`, whose SEL is `selIncrement`. -/
theorem evBAcceptedIncrements : Obligations.EvBAcceptedIncrements :=
  fun s _ hphase hfault hnow hgate => exec_of_gate_passes ((evReady_iff s).mpr ⟨hphase, hfault⟩) hgate hnow

/-- Settles O32: the next state of `exec_of_gate_passes`, whose SEL is `selDecrement`, read off by `selDecrement_eq`. -/
theorem evAAcceptedDecrements : Obligations.EvAAcceptedDecrements := by
  intro s now hphase hfault hnow hgate
  rw [← selDecrement_eq]
  exact exec_of_gate_passes (i := .evA now) ((evReady_iff s).mpr ⟨hphase, hfault⟩) hgate hnow

/-- Settles O36: the second event is tested against the first one's `now`, so it fails the gate. -/
theorem windowIsShared : Obligations.WindowIsShared := by
  intro s t u i j hready hgate hle hnow hwindow hexec hdbt hparams
  obtain rfl := Host.Outcome.next.inj ((exec_of_gate_passes hready hgate (hle.trans_lt hnow)).symm.trans hexec)
  refine exec_of_gate_fails ?_
  rw [hdbt, hparams]
  exact gate_eq_false_of_le hle hnow hwindow

/-- Settles O37: reset leaves DBT = 0, so the elapsed time is `now` itself; SEL = 0 goes to 9 or to 1. -/
theorem firstEventEdge : Obligations.FirstEventEdge := by
  intro p l i hboot hnow
  refine ⟨fun hlate => ?_, fun hearly => exec_of_gate_fails (gate_eq_false_of_le (Nat.zero_le _) hnow hearly)⟩
  have hready : ({ State.resetWith p with inputs := l } : State).evReady = true := by simp [evReady_iff, hboot]
  have hgate : gate p.timeW i.now 0 = true := (gate_iff_of_le (Nat.zero_le _) hnow).mpr hlate
  refine ⟨_, exec_of_gate_passes hready hgate hnow, rfl, rfl, ?_⟩
  cases i <;> rfl

/-! ## The step that transfers an event -/

theorem step_of_action_event {s : State} {i : Instr} (hact : action s = .event i) : step s = exec i s.advance := by
  rw [step, hact]

/-- Settles O4: at an open port the step's choice is the event that the port carries. -/
theorem stepRunsOfferedEvent : Obligations.StepRunsOfferedEvent :=
  fun _ _ hrst hready hvalid hdecode => step_of_action_event (action_eq_event hrst hready hvalid hdecode)

theorem gate_of_not_accepted {s : State} {i : Instr} (htrans : s.transferred = some i) (hacc : s.accepted = none) :
    gate s.params.timeW i.now s.dbt = false := by
  simpa [State.accepted, htrans] using hacc

/-- Settles O33: both clauses are the failed gate, by `exec` directly and in the step that transfers the event. -/
theorem eventInsideWindowIsDropped : Obligations.EventInsideWindowIsDropped := by
  refine ⟨fun s now _ _ hgate => ⟨exec_of_gate_fails hgate, exec_of_gate_fails hgate⟩, fun s i htrans hacc => ?_⟩
  rw [step_of_action_event ((transferred_eq_some_iff s i).mp htrans)]
  exact exec_of_gate_fails (by simpa using gate_of_not_accepted htrans hacc)

end Sys2Proof.Machine
end

section
/-! PROOFS. The invariant along a run (44_selection_fsm.md R75, 60_exceptions.md R79). -/

namespace Sys2Proof.Machine

/-- Every run answers a state, and the invariant holds there if it holds at the start. -/
theorem State.Inv.exists_run {s : State} (hs : s.Inv) (n : Nat) : ∃ t, run n s = .next t ∧ t.Inv := by
  induction n generalizing s with
  | zero => exact ⟨s, rfl, hs⟩
  | succ n ih =>
    obtain ⟨u, hu⟩ := step_next s
    rw [run_succ hu]
    exact ih (stepKeepsInv s u hs hu)

/-- Settles O14: the reset state meets the invariant, which has both facts. -/
theorem reachableSelIsLegal : Obligations.ReachableSelIsLegal := by
  intro p l n
  obtain ⟨t, hrun, ht⟩ := (inv_resetWith p l).exists_run n
  exact ⟨t, hrun, ht.sel_lt, ht.no_fault⟩

end Sys2Proof.Machine
end

section
/-! PROOFS. Runs never stop, and the steps that change no register: the idle wait, the blocked render and the faulted block
(60_exceptions.md R79 to R81, R93, R94). -/

namespace Sys2Proof.Machine

/-- Settles O7, by induction on the number of steps: each of them answers a next state. -/
theorem noRunEverStops : Obligations.NoRunEverStops := by
  intro n
  induction n with
  | zero => exact fun s => ⟨s, rfl⟩
  | succ n ih =>
    intro s
    obtain ⟨u, hu⟩ := step_next s
    rw [run_succ hu]
    exact ih u

/-! ## One step -/

/-- With no reset, no transfer on the event port and the pixel port closed, the block waits. -/
theorem step_waits {s : State} (hrst : s.portIn.rst = false) (hevent : s.evReady = true → s.portIn.evValid = false)
    (hpixel : s.pixValid = false) : step s = .next s.advance := by
  rcases step_cases s with ⟨hreset, _⟩ | ⟨_, hready, hvalid, _⟩ | ⟨_, hopen, _⟩ | ⟨_, _, _, _, hstep⟩
  · simp [hrst] at hreset
  · simp [hevent hready] at hvalid
  · simp [hpixel] at hopen
  · exact hstep

/-- An open event port with no event offered (R93). -/
theorem step_of_idle {s : State} {x : PortIn} (rest : List PortIn) (hready : s.evReady = true) (hrst : x.rst = false)
    (hvalid : x.evValid = false) : step { s with inputs := x :: rest } = .next { s with inputs := rest } := by
  have hclosed : s.pixValid = false := by simp [State.pixValid, ((evReady_iff s).mp hready).1]
  exact step_waits (s := { s with inputs := x :: rest }) hrst (fun _ => hvalid) hclosed

theorem ports_closed_of_fault {s : State} (h : s.fault ≠ none) : s.evReady = false ∧ s.pixValid = false :=
  ⟨Bool.eq_false_iff.mpr fun hready => h ((evReady_iff s).mp hready).2,
    Bool.eq_false_iff.mpr fun hvalid => h ((pixValid_iff s).mp hvalid).2⟩

/-- A faulted block has no step but reset, so it waits (R80). -/
theorem step_of_fault {s : State} {x : PortIn} (rest : List PortIn) (hfault : s.fault ≠ none) (hrst : x.rst = false) :
    step { s with inputs := x :: rest } = .next { s with inputs := rest } := by
  obtain ⟨hevent, hpixel⟩ := ports_closed_of_fault hfault
  exact step_waits (s := { s with inputs := x :: rest }) hrst 
    (fun hready => (Bool.false_ne_true (hevent.symm.trans hready)).elim) hpixel

/-- The faulting branch of the slot step, beside `step_of_slotWord`: the reason is recorded and no word delivered. -/
theorem step_of_slotWord_error {s : State} {r : Fault} (hrst : s.portIn.rst = false) (hvalid : s.pixValid = true)
    (hready : s.portIn.pixReady = true) (hslot : s.slotWord = .error r) :
    step s = .next { s.advance with fault := some r } := by
  rw [step_of_pixValid hrst hvalid, hready, slotStep, slotWord_advance, hslot]
  rfl

/-! ## Runs that change no register -/

/-- If each listed sample, wherever it stands before the rest of the input, is used up with no register changed, then so is
the whole list. -/
theorem run_keeps {s : State} {l rest : List PortIn} (hin : s.inputs = l ++ rest)
    (hkeep : ∀ x ∈ l, ∀ tail, step { s with inputs := x :: tail } = .next { s with inputs := tail }) :
    run l.length s = .next { s with inputs := rest } := by
  induction l generalizing s with
  | nil => obtain rfl := hin; rfl
  | cons x l ih =>
    obtain ⟨hhead, htail⟩ := List.forall_mem_cons.mp hkeep
    have hs : s = { s with inputs := x :: (l ++ rest) } := by rw [← List.cons_append, ← hin]
    exact (run_succ ((congrArg step hs).trans (hhead _))).trans (ih rfl htail)

theorem rst_of_noReset {l : List PortIn} (h : noReset l = true) : ∀ x ∈ l, x.rst = false := by
  simpa [noReset] using h

theorem pixReady_of_readyCount_zero {l : List PortIn} (h : readyCount l = 0) : ∀ x ∈ l, x.pixReady = false := by
  simpa [readyCount, List.countP_eq_zero] using h

/-- Settles O9: each of the samples is an idle wait. -/
theorem idleWaitKeepsRegisters : Obligations.IdleWaitKeepsRegisters :=
  fun _ _ _ hready hin hquiet => run_keeps hin fun x hx tail => step_of_idle tail hready (hquiet x hx).1 (hquiet x hx).2

/-- Settles O27: each of the samples meets the blocked slot step of `slotStepDelivers`, at any SEL and K. -/
theorem renderHangsWithoutConsumer : Obligations.RenderHangsWithoutConsumer := by
  intro s l rest hphase hfault hin hl hcount
  refine ⟨run_keeps hin fun x hx tail => ?_, by simp [State.evReady, hphase]⟩
  have hslot := slotStepDelivers { s with inputs := x :: tail } (rst_of_noReset hl x hx) hphase hfault
  exact (hslot.1 (pixReady_of_readyCount_zero hcount x hx)).1

/-- Settles O41: the reason is the error of the slot's word, and every later sample without reset meets `step_of_fault`. -/
theorem faultIsAbsorbing : Obligations.FaultIsAbsorbing := by
  refine ⟨fun s hrst hphase hfault hready => ?_, fun f i => ⟨rfl, rfl, rfl, rfl⟩, fun s l rest hfault hin hl => ?_⟩
  · have hvalid : s.pixValid = true := (pixValid_iff s).mpr ⟨hphase, hfault⟩
    exact ⟨fun hk => step_of_slotWord_error hrst hvalid hready (word_index_error _ _ _ hk),
      fun hsel hk => step_of_slotWord_error hrst hvalid hready (word_frame_error _ _ hsel hk)⟩
  · exact ⟨run_keeps hin fun x hx tail => step_of_fault tail hfault (rst_of_noReset hl x hx), ports_closed_of_fault hfault⟩

end Sys2Proof.Machine
end

section
/-! PROOFS. Events as interrupts (60_exceptions.md R83 to R85): the precise event, the edge that comes during a render, and
simultaneous edges. -/

namespace Sys2Proof.Machine

/-! ## The precise event -/

theorem selIncrement_ne (v : Sel) : selIncrement v ≠ v := by
  unfold selIncrement frameCount
  bv_omega

theorem selDecrement_ne (v : Sel) : selDecrement v ≠ v := by
  rw [selDecrement_eq]
  split <;> bv_omega

/-- Both transitions move SEL, at each of its sixteen values. -/
theorem transitionOf_sel_ne (i : Instr) (s : State) : (transitionOf i s).sel ≠ s.sel := by
  cases i with
  | evA => exact selDecrement_ne s.sel
  | evB => exact selIncrement_ne s.sel

theorem acceptEvent_transitionOf_sel (i : Instr) (now : Nat) (s : State) :
    (s.acceptEvent (transitionOf i) now).sel = (transitionOf i s).sel := by
  cases i <;> rfl

/-- Settles O35, by cases on the event step: an accepted event writes all four registers, else the state is the same. -/
theorem eventIsPrecise : Obligations.EventIsPrecise := by
  intro s t i h
  obtain rfl := Host.Outcome.next.inj ((exec_eq i s).symm.trans h)
  rcases eventStep_cases (transitionOf i) i.now s with ⟨_, hgate, hs⟩ | ⟨_, _, hs⟩ | ⟨_, hs⟩ <;> rw [hs]
  · have hne := acceptEvent_transitionOf_sel i i.now s ▸ transitionOf_sel_ne i s
    exact ⟨.inr ⟨hgate, by simp, acceptEvent_transitionOf_sel_lt .., hne, by simp, by simp⟩, by simp⟩
  · simp
  · simp

/-! ## The step in which the environment offers an event -/

/-- The two event lines carry the record that is driven on them (R40). -/
theorem record_offering {w record : Nat} (h : record < 2 ^ (w + 1)) : (PortIn.offering record).record w = record := by
  have hnow : record / 2 < 2 ^ w := by rw [pow_succ] at h; omega
  simp only [PortIn.record, PortIn.offering, Nat.mod_eq_of_lt hnow, BitVec.toNat_ofNat]
  omega

theorem wellFormed_iff_now_lt (w : Nat) (i : Instr) : i.wellFormed w = true ↔ i.now < 2 ^ w := by
  cases i <;> exact decide_eq_true_iff

section
variable {s : State} {i : Instr} {rest : List PortIn}

/-- At an open port a sample that offers an event transfers it. -/
theorem transferred_of_sampleEvent (hin : s.inputs = sampleEvent i :: rest) (hready : s.evReady = true)
    (hnow : i.now < 2 ^ s.params.timeW) : s.transferred = some i := by
  obtain ⟨hlt, hdecode⟩ := decodeOfEncode s.params.timeW i ((wellFormed_iff_now_lt _ i).mpr hnow)
  have hport : s.portIn = .offering (encode i) := s.portIn_cons hin
  have htake : evTake s.params.timeW s.portIn = .ok i := by rw [hport, evTake, record_offering hlt, hdecode]
  exact (transferred_eq_some_iff s i).mpr (action_eq_event (by rw [hport]; rfl) hready (by rw [hport]; rfl) htake)

theorem accepted_of_sampleEvent (hin : s.inputs = sampleEvent i :: rest) (hready : s.evReady = true)
    (hnow : i.now < 2 ^ s.params.timeW) (hgate : gate s.params.timeW i.now s.dbt = true) : s.accepted = some i :=
  (accepted_eq_some_iff s i).mpr ⟨transferred_of_sampleEvent hin hready hnow, hgate⟩

theorem step_of_dropped (hin : s.inputs = sampleEvent i :: rest) (hready : s.evReady = true)
    (hnow : i.now < 2 ^ s.params.timeW) (hgate : gate s.params.timeW i.now s.dbt = false) :
    step s = .next { s with inputs := rest } := by
  have htrans := transferred_of_sampleEvent hin hready hnow
  rw [← s.advance_cons hin]
  exact eventInsideWindowIsDropped.2 s i htrans (by simp [State.accepted, htrans, hgate])

end

/-- Settles O42: under DROP the sample is an idle wait; under HOLD the gate tests the time elapsed since DBT. -/
theorem edgeDuringRender : Obligations.EdgeDuringRender := by
  intro s i rest hready hle hnow
  refine ⟨step_of_idle rest hready rfl rfl, fun hlate => ?_, fun hearly => ?_⟩
  · have hacc := accepted_of_sampleEvent (s := { s with inputs := sampleEvent i :: rest }) rfl hready hnow
      ((gate_iff_of_le hle hnow).mpr hlate)
    refine ⟨_, (step_of_accepted hacc).1, by simpa using Nat.mod_eq_of_lt hnow, by simp, ?_⟩
    rw [acceptEvent_transitionOf_sel]
    exact transitionOf_sel_ne i _
  · exact step_of_dropped rfl hready hnow (gate_eq_false_of_le hle hnow hearly)

/-! ## Simultaneous edges -/

@[simp] theorem serialise_fst_now (o : EdgeOrder) (first second : Nat) : (o.serialise first second).1.now = first := by
  cases o <;> rfl

@[simp] theorem serialise_snd_now (o : EdgeOrder) (first second : Nat) : (o.serialise first second).2.now = second := by
  cases o <;> rfl

theorem selIncrement_of_lt {v : Sel} (h : v.toNat < 10) : selIncrement v = if v = 9 then 0 else v + 1 := by
  unfold selIncrement frameCount
  split <;> bv_omega

theorem selDecrement_of_lt {v : Sel} (h : v.toNat < 10) : selDecrement v = if v = 0 then 9 else v - 1 := by
  rw [selDecrement_eq]
  split_ifs <;> bv_omega

/-- A run uses up one listed sample a step. -/
theorem run_inputs {n : Nat} {s t : State} (h : run n s = .next t) : t.inputs = s.inputs.drop n := by
  induction n generalizing s with
  | zero => cases h; rfl
  | succ n ih =>
    obtain ⟨u, hu⟩ := step_next s
    rw [ih (run_succ hu ▸ h), (stepUsesOneSample s u hu).1, List.drop_tail]

/-- Settles O43: after the first event's render DBT is the first one's `now`, so the second fails the gate. -/
theorem simultaneousEdges : Obligations.SimultaneousEdges := by
  intro s o first second rest hready hlegal hle hsecond hwindow hgate hin
  have hacc := accepted_of_sampleEvent hin hready (by simpa using hle.trans_lt hsecond) (by simpa using hgate)
  obtain ⟨t, hstep, hdbt, -, -, -, hrender⟩ := eventHandledToCompletion s _ _ _ _ hacc hin (by decide)
  obtain ⟨u, ws, hrun, hopen, husel, hudbt, hlen, -, hpix⟩ := hrender (by decide) (by decide)
  have hufirst : u.dbt = first := by rw [hudbt, hdbt, serialise_fst_now]
  have hparams : u.params = s.params := run_params hrun
  have huin : u.inputs = sampleEvent (o.serialise first second).2 :: rest := by simp [run_inputs hrun, hin]
  have hdropped : step u = .next { u with inputs := rest } :=
    step_of_dropped huin hopen (by simpa [hparams] using hsecond)
      (by simpa [hparams, hufirst] using gate_eq_false_of_le hle hsecond hwindow)
  refine ⟨_, (run_add (n := 1) hrun).trans (run_succ (n := 0) hdropped), hufirst, ((evReady_iff u).mp hopen).1, rfl,
    by simp [hpix, hlen], husel.trans ?_⟩
  obtain rfl := Host.Outcome.next.inj ((step_of_accepted hacc).1.symm.trans hstep)
  cases o with
  | aFirst => simpa [EdgeOrder.serialise, transitionOf] using selDecrement_of_lt hlegal
  | bFirst => simpa [EdgeOrder.serialise, transitionOf] using selIncrement_of_lt hlegal

end Sys2Proof.Machine
end

section
/-! PROOFS. Reset and the hazards: the reset step and the boot render (70_reset_and_hazards.md R95, R96), the event lines during a
render (R99), and the spacing of accepted events (R100). -/

namespace Sys2Proof.Machine

/-! ## The reset step -/

theorem step_of_rst {s : State} (h : s.portIn.rst = true) : step s = .next s.advance.resetRegisters := by
  rw [step, (action_eq_reset_iff s).mpr h]

theorem transferred_eq_none_of_rst {s : State} (h : s.portIn.rst = true) : s.transferred = none :=
  (eventPortTransfers s).2 (.inl h)

/-- Settles O2: the reset step is `step_of_rst`, and a render cut short is the run of `run_rendering` with that step after it. -/
theorem resetStepFromAnyState : Obligations.ResetStepFromAnyState := by
  refine ⟨fun s hrst => ⟨?_, transferred_eq_none_of_rst hrst, s.advance_pixOut⟩, ?_⟩
  · rw [step_of_rst hrst, ← s.advance_params]
    rfl
  · intro s l rest x hphase hfault hk hsel hin hl hcount hrst
    have hs : s.Rendering (l ++ x :: rest) := ⟨hphase, hfault, hsel, by simp [hk], hin⟩
    obtain ⟨ws, hlen, hws, hrun⟩ := run_rendering hs hl (by simpa [hk] using hcount)
    rw [hk] at hws
    refine ⟨ws, hlen, hws, ?_⟩
    have hlast : (s.rendered (readyCount l) ws (x :: rest)).portIn.rst = true := hrst
    rw [run_add hrun, run_succ (step_of_rst hlast)]
    rfl

/-! ## The boot render -/

theorem rendering_resetWith {p : Params} (hboot : p.bootRender = true) (l : List PortIn) :
    ({ State.resetWith p with inputs := l } : State).Rendering l where
  phase_eq := by simp [hboot]
  no_fault := rfl
  sel_lt := by simp
  k_lt := by simp
  inputs_eq := rfl

theorem evReady_eq_false_of_render {s : State} (h : s.phase = .render) : s.evReady = false := by
  simp [State.evReady, h]

/-- Settles O3: the boot render is followed by `run_rendering` up to the 25th word and by `run_render_completes` through it. -/
theorem portAfterReset : Obligations.PortAfterReset := by
  intro p l rest
  refine ⟨fun hboot => by simp [evReady_iff, hboot], fun hboot hl hcount => ?_, fun hboot hl hcount hend => ?_⟩
  · have hs := rendering_resetWith hboot (l ++ rest)
    obtain ⟨_, -, -, hrun⟩ := run_rendering hs hl (by simpa using hcount)
    exact ⟨_, hrun, evReady_eq_false_of_render hs.phase_eq⟩
  · obtain ⟨_, -, -, hrun⟩ := run_render_completes (rendering_resetWith hboot (l ++ rest)) hl (by simpa using hcount) hend
    exact ⟨_, hrun, (evReady_iff _).mpr ⟨rfl, rfl⟩⟩

/-! ## The event lines during a render -/

/-- At a closed event port the choice of a step reads `rst` and `pix_ready` alone among the input ports. -/
theorem action_of_closed {s : State} (h : s.evReady = false) :
    action s = if s.portIn.rst then .reset else if s.pixValid then .slot s.portIn.pixReady else .wait := by
  simp [action, h]

/-- Settles O28: a render closes the event port, so that the two samples lead to the same choice of the step. -/
theorem renderIgnoresEventPort : Obligations.RenderIgnoresEventPort := by
  intro s x y rest hphase hrst hpix
  have hact (z : PortIn) : action { s with inputs := z :: rest } =
      if z.rst then .reset else if s.pixValid then .slot z.pixReady else .wait :=
    action_of_closed (s := { s with inputs := z :: rest }) (evReady_eq_false_of_render hphase)
  exact step_congr (by rw [hact x, hact y, hrst, hpix]) rfl

/-! ## The spacing of accepted events -/

/-- An accepted event that is not before DBT is more than the window after it, since the gate tests the elapsed time then. -/
theorem window_lt_of_accepted {s : State} {i : Instr} (hacc : s.accepted = some i) (hle : s.dbt ≤ i.now) :
    250000 < i.now - s.dbt :=
  (gate_iff_of_le hle (step_of_accepted hacc).2).mp ((accepted_eq_some_iff s i).mp hacc).2

theorem step_dbt_of_accepted {s t : State} {i : Instr} (h : step s = .next t) (hacc : s.accepted = some i) :
    t.dbt = i.now := by
  obtain ⟨hstep, hnow⟩ := step_of_accepted hacc
  obtain rfl := Host.Outcome.next.inj (hstep.symm.trans h)
  simpa using Nat.mod_eq_of_lt hnow

theorem step_dbt_of_not_accepted {s t : State} (h : step s = .next t) (hact : action s ≠ .reset)
    (hacc : s.accepted = none) : t.dbt = s.dbt := by
  simpa [hact, hacc] using step_dbt h

/-- Settles O39, by induction on the number of steps: an accepted event is apart from DBT, which it then becomes, and the later
ones are apart from it; every other step keeps DBT. -/
theorem acceptedEventsAreApart : Obligations.AcceptedEventsAreApart := by
  intro n
  induction n with
  | zero => exact fun s _ _ => List.pairwise_singleton _ _
  | succ n ih =>
    intro s hfree hmono
    obtain ⟨t, ht⟩ := step_next s
    obtain ⟨hact, hfree⟩ := (resetFree_succ ht).mp hfree
    obtain ⟨hle, hmono⟩ := monoDuty_succ ht hact hmono
    have hlater := ih t hfree hmono
    rw [trace_succ _ ht]
    cases hacc : s.accepted with
    | none =>
      rw [step_dbt_of_not_accepted ht hact hacc] at hlater
      exact hlater
    | some i =>
      rw [step_dbt_of_accepted ht hacc] at hle hlater
      have hfirst : 250000 < i.now - s.dbt := window_lt_of_accepted hacc hle
      refine List.pairwise_cons.mpr ⟨List.forall_mem_cons.mpr ⟨hfirst, fun b hb => ?_⟩, hlater⟩
      have hb : 250000 < b - i.now := List.rel_of_pairwise_cons hlater hb
      omega

end Sys2Proof.Machine
end

section
/-! PROOFS. The records written out in 95_test_vectors.md P1 and P2, read as encodings of their events. -/

namespace Sys2Proof

/-- The record of a well-formed event decodes to that event (R41). -/
theorem decode_eq_of_encode_eq {w record : Nat} {i : Instr} (hwf : i.wellFormed w = true) (henc : encode i = record) :
    decode w record = .ok i :=
  henc ▸ (decodeOfEncode w i hwf).2

/-- Settles O46: each record is the encoding of its event, and `now` fits in 64 bits. -/
theorem recordsOfTheTestVectors : Obligations.RecordsOfTheTestVectors := by
  refine ⟨?_, ?_, ?_, ?_⟩
  all_goals exact decode_eq_of_encode_eq (by decide) (by decide)

end Sys2Proof
end
